-- ==== Sys2Proof/Word.lean ====
section
/-! DEFINITION. The one datum of the block, a byte (R5 BYTE_W, R7), and its one arithmetic operation (R64). -/

namespace Sys2Proof

/-- A byte: an unsigned integer in the range 0 to 255 (R7). -/
abbrev Byte := BitVec 8

/-- `(a + b) mod 256`: unsigned addition of two bytes with the carry out of bit 7 discarded (R7, R64). -/
def addMod256 (a b : Byte) : Byte := a + b

end Sys2Proof
end

