-- ==== Sys2Proof/Config.lean ====
section
/-! DEFINITION. The implementation parameters of R5, each in one place. The literals are unaudited (U11), log entry 17. -/

namespace Sys2Proof

/-- `BYTE_W`: the width of every datum, in bits (R5). -/
def Config.byteW : Nat := 8

/-- `FRAME_LEN`: the length of every frame, in bytes (R5, R50). -/
def Config.frameLen : Nat := 5

/-- `HEADER_1`, frame offset 0 (R5, R50). -/
def Config.header1 : Byte := 0xFF

/-- `HEADER_2`, frame offset 1 (R5, R50). -/
def Config.header2 : Byte := 0xFE

/-- `CHK_MOD`: the modulus of the checksum addition, 2 to the power `BYTE_W` (R5, R6). -/
def Config.chkMod : Nat := 2 ^ Config.byteW

/-- `CMD_HEARTBEAT`: reserved command value that no rule of the block reads (R5, R60). -/
def Config.cmdHeartbeat : Byte := 0x00

/-- `CMD_ACK`: reserved command value that no rule of the block reads (R5, R60). -/
def Config.cmdAck : Byte := 0x01

/-- `MAX_ATTEMPTS_PER_FEED`: frame attempts per invocation of `feed` (R5, R91). -/
def Config.maxAttemptsPerFeed : Nat := 1

/-- `PS_W`: the width of the 3-bit code of `ps` (R5, D1). -/
def Config.psW : Nat := 3

/-- `N_CHANNELS`: the number of independent instances; the spec leaves it open with default 1 (R5, D24), log entry 16. -/
def Config.nChannels : Nat := 1

/-- The value every data register and Encoder latch takes at reset (R22, D4), log entry 19. -/
def Config.resetByte : Byte := 0x00

end Sys2Proof
end

