-- ==== Sys2Proof/Syntax.lean ====
section
/-! DEFINITION. The frame-position values (R11) and the operation set of the block (R57), one constructor per row of
spec/opcode_table.json. -/

namespace Sys2Proof

/-- The five values of the frame-position register `ps`: which frame byte the Decoder awaits (R11, D20). -/
inductive Ps where
  | idle
  | sawHeader1
  | sawHeader2
  | sawCmd
  | awaitingChecksum
deriving DecidableEq, Repr

/-- A decoded packet `(command, value)`: what a frame carries and what a dispatch hands over (R32, R53). -/
structure Packet where
  command : Byte
  value   : Byte
deriving DecidableEq, Repr

/-- The operations of R57. A byte-step carries the byte it consumed where the table's row leaves it open; the byte of
`IDLE.H1` and of `H1.H2` is fixed by the row. An Encoder emission carries the operands its rule names (R106 to R110). -/
inductive Instr where
  | idleH1                             -- IDLE.H1, R72
  | idleSkip (b : Byte)                -- IDLE.SKIP, R71
  | h1H2                               -- H1.H2, R73
  | h1Resync (b : Byte)                -- H1.RESYNC, R74
  | cmdLatch (b : Byte)                -- CMD.LATCH, R75
  | valLatch (b : Byte)                -- VAL.LATCH, R76
  | chkPass (b : Byte)                 -- CHK.PASS, R77
  | chkFail (b : Byte)                 -- CHK.FAIL, R78
  | decFeed                            -- DEC.FEED, R90
  | decDispatch                        -- DEC.DISPATCH, R95
  | encSend (command value : Byte)     -- ENC.SEND, R105
  | encB0                              -- ENC.B0, R106
  | encB1                              -- ENC.B1, R107
  | encB2 (command : Byte)             -- ENC.B2, R108
  | encB3 (value : Byte)               -- ENC.B3, R109
  | encB4 (command value : Byte)       -- ENC.B4, R110
  | reset                              -- RESET, R170
deriving DecidableEq, Repr

end Sys2Proof
end

