-- ==== Sys2Proof/WellFormed.lean ====
section
/-! DEFINITION. Which terms of `Instr` the decode table of R55 can select: the two default rows exclude the byte that the
specific row of their state takes. Every other operand is any byte (R54, R111). -/

namespace Sys2Proof

/-- `IDLE.SKIP` never carries `HEADER_1` (R71) and `H1.RESYNC` never carries `HEADER_2` (R74). -/
def Instr.wf : Instr → Bool
  | .idleSkip b => b != Config.header1
  | .h1Resync b => b != Config.header2
  | .idleH1 | .h1H2 | .cmdLatch _ | .valLatch _ | .chkPass _ | .chkFail _ => true
  | .decFeed | .decDispatch => true
  | .encSend _ _ | .encB0 | .encB1 | .encB2 _ | .encB3 _ | .encB4 _ _ => true
  | .reset => true

end Sys2Proof
end

