-- ==== Sys2Proof/Decode.lean ====
section
/-! DEFINITION. The frame format (R50 to R53), the Decoder's decode table (R55), the keys of the opcode table (R67), the
decoder of a key, total and rejecting by name, and after it the encoder. -/

namespace Sys2Proof

/-! ### The frame -/

/-- `CHECKSUM = (CMD + VALUE) mod 256` (R52). -/
def checksum (command value : Byte) : Byte := addMod256 command value

/-- The frame `[HEADER_1][HEADER_2][CMD][VALUE][CHECKSUM]`, offset 0 first (R50). -/
def frameBytes (command value : Byte) : List Byte :=
  [Config.header1, Config.header2, command, value, checksum command value]

/-- Validity of a sequence of bytes as a frame (R53). -/
def validFrame : List Byte → Bool
  | [b0, b1, b2, b3, b4] => b0 == Config.header1 && b1 == Config.header2 && b4 == checksum b2 b3
  | _ => false

/-- The packet a valid frame encodes, `{command: b2, value: b3}` (R53). -/
def framePacket : List Byte → Option Packet
  | [b0, b1, b2, b3, b4] => if validFrame [b0, b1, b2, b3, b4] then some ⟨b2, b3⟩ else none
  | _ => none

/-- The frame drawn as a 40-bit pattern, first byte leftmost (R50). -/
def frameBits (command value check : Byte) : BitVec 40 :=
  Config.header1.setWidth 40 <<< 32 ||| Config.header2.setWidth 40 <<< 24 ||| command.setWidth 40 <<< 16 |||
    value.setWidth 40 <<< 8 ||| check.setWidth 40

/-- The byte at a frame offset of the 40-bit pattern: bits 39:32 for offset 0 down to bits 7:0 for offset 4 (R50). -/
def frameBitsByte (bits : BitVec 40) (offset : Nat) : Byte := bits.extractLsb' (8 * (4 - offset)) 8

/-! ### The codes of `ps` and of `enc_idx` -/

/-- The 3-bit code of `ps`: the frame offset of the byte awaited (R11, R58, D1). -/
def psCode : Ps → BitVec 3
  | .idle => 0b000
  | .sawHeader1 => 0b001
  | .sawHeader2 => 0b010
  | .sawCmd => 0b011
  | .awaitingChecksum => 0b100

/-- The value of `ps` a 3-bit code stands for; codes 5 to 7 stand for none (R11, D20). -/
def psOfCode (code : BitVec 3) : Option Ps :=
  match code.toNat with
  | 0 => some .idle
  | 1 => some .sawHeader1
  | 2 => some .sawHeader2
  | 3 => some .sawCmd
  | 4 => some .awaitingChecksum
  | _ => none

/-- The frame offset a 3-bit `enc_idx` stands for; codes 5 to 7 stand for none (R20, D20). -/
def offsetOfCode (code : BitVec 3) : Option (Fin 5) :=
  if h : code.toNat < 5 then some ⟨code.toNat, h⟩ else none

/-! ### The decode table of R55 -/

/-- Which byte-step a consumed byte selects: the specific row of a state is tried before its default row. `eqAcc` is the
data-dependent test `b == acc`, looked at in `AwaitingChecksum` only (R55). -/
def selectByteStep (ps : Ps) (b : Byte) (eqAcc : Bool) : Instr :=
  match ps with
  | .idle => if b = Config.header1 then .idleH1 else .idleSkip b
  | .sawHeader1 => if b = Config.header2 then .h1H2 else .h1Resync b
  | .sawHeader2 => .cmdLatch b
  | .sawCmd => .valLatch b
  | .awaitingChecksum => if eqAcc then .chkPass b else .chkFail b

/-- Which emission `enc_idx` selects while a send is in progress, with the operands of that send (R57, R133). -/
def selectEmission (idx : Fin 5) (command value : Byte) : Instr :=
  match idx with
  | 0 => .encB0
  | 1 => .encB1
  | 2 => .encB2 command
  | 3 => .encB3 value
  | 4 => .encB4 command value

/-- The condition of one row of R55's table on the byte consumed. -/
inductive RowCond where
  | isHeader1
  | notHeader1
  | isHeader2
  | notHeader2
  | anyByte
  | isAcc
  | notAcc
deriving DecidableEq, Repr

/-- One row of R55's table: the state, the condition on the byte, the operation's mnemonic and the next `ps`. -/
structure ByteRow where
  ps       : Ps
  cond     : RowCond
  mnemonic : String
  next     : Ps
deriving DecidableEq, Repr

/-- The table of R55, row for row. -/
def byteRows : List ByteRow :=
  [ ⟨.idle, .isHeader1, "IDLE.H1", .sawHeader1⟩,
    ⟨.idle, .notHeader1, "IDLE.SKIP", .idle⟩,
    ⟨.sawHeader1, .isHeader2, "H1.H2", .sawHeader2⟩,
    ⟨.sawHeader1, .notHeader2, "H1.RESYNC", .idle⟩,
    ⟨.sawHeader2, .anyByte, "CMD.LATCH", .sawCmd⟩,
    ⟨.sawCmd, .anyByte, "VAL.LATCH", .awaitingChecksum⟩,
    ⟨.awaitingChecksum, .isAcc, "CHK.PASS", .idle⟩,
    ⟨.awaitingChecksum, .notAcc, "CHK.FAIL", .idle⟩ ]

/-- Whether a byte meets the condition of a row, all 8 bits compared (R65). -/
def condHolds (c : RowCond) (b acc : Byte) : Bool :=
  match c with
  | .isHeader1 => b == Config.header1
  | .notHeader1 => b != Config.header1
  | .isHeader2 => b == Config.header2
  | .notHeader2 => b != Config.header2
  | .anyByte => true
  | .isAcc => b == acc
  | .notAcc => b != acc

/-- Whether a row of the table applies to a state, a byte and the accumulator (R55). -/
def rowApplies (r : ByteRow) (ps : Ps) (b acc : Byte) : Bool :=
  decide (r.ps = ps) && condHolds r.cond b acc

/-- The mnemonic of an instruction, as spec/opcode_table.json spells it. -/
def mnemonicOf : Instr → String
  | .idleH1 => "IDLE.H1"
  | .idleSkip _ => "IDLE.SKIP"
  | .h1H2 => "H1.H2"
  | .h1Resync _ => "H1.RESYNC"
  | .cmdLatch _ => "CMD.LATCH"
  | .valLatch _ => "VAL.LATCH"
  | .chkPass _ => "CHK.PASS"
  | .chkFail _ => "CHK.FAIL"
  | .decFeed => "DEC.FEED"
  | .decDispatch => "DEC.DISPATCH"
  | .encSend _ _ => "ENC.SEND"
  | .encB0 => "ENC.B0"
  | .encB1 => "ENC.B1"
  | .encB2 _ => "ENC.B2"
  | .encB3 _ => "ENC.B3"
  | .encB4 _ _ => "ENC.B4"
  | .reset => "RESET"

/-! ### Keys of the opcode table (R67) -/

/-- What selects an operation, in the key space its row of the opcode table uses (R67). The spaces are disjoint: the same
bits in two spaces are two keys. -/
inductive Key where
  /-- The 11-bit key `{ps[2:0], b[7:0]}` with the data-dependent test `b == acc` (R67). -/
  | byteStep (bits : BitVec 11) (eqAcc : Bool)
  /-- `enc_idx[2:0]` while a send of `command`, `value` is in progress (R67, R133). -/
  | emission (idx : BitVec 3) (command value : Byte)
  /-- The one-bit port `feed` (R67). -/
  | portFeed (bit : BitVec 1)
  /-- The one-bit output `pkt_valid` (R67, R95). -/
  | portPktValid (bit : BitVec 1)
  /-- The one-bit port `rst` (R67). -/
  | portRst (bit : BitVec 1)
  /-- The 40-bit frame pattern of `ENC.SEND` (R50, R67). -/
  | frame (bits : BitVec 40)
deriving DecidableEq, Repr

/-- Why a key selects no operation. -/
inductive Reject where
  /-- Code 5, 6 or 7 in the place of `ps`: matches no row and never occurs (R67, D20). -/
  | unusedPsCode
  /-- Code 5, 6 or 7 in the place of `enc_idx` (R20, D20). -/
  | unusedEncIdx
  /-- The one-bit port is 0: nothing is requested or put out. -/
  | portLow
  /-- Bits 39:24 of the 40-bit pattern are not `HEADER_1`, `HEADER_2` (R50). -/
  | badHeader
  /-- Bits 7:0 of the 40-bit pattern are not the checksum of the two operands (R50). -/
  | badChecksum
deriving DecidableEq, Repr

/-- What decoding a key gives: an instruction, or a rejection by name. -/
inductive Decoded where
  | instr (i : Instr)
  | rejected (r : Reject)
deriving DecidableEq, Repr

/-- Decode the byte-step key `{ps, b}` (R55, R67). -/
def decodeByteStep (bits : BitVec 11) (eqAcc : Bool) : Decoded :=
  match psOfCode (bits.extractLsb' 8 3) with
  | some ps => .instr (selectByteStep ps (bits.extractLsb' 0 8) eqAcc)
  | none => .rejected .unusedPsCode

/-- Decode the `enc_idx` key (R67, R133). -/
def decodeEmission (idx : BitVec 3) (command value : Byte) : Decoded :=
  match offsetOfCode idx with
  | some k => .instr (selectEmission k command value)
  | none => .rejected .unusedEncIdx

/-- Decode a one-bit port: the operation of the port when it is 1 (R67). -/
def decodePort (bit : BitVec 1) (i : Instr) : Decoded :=
  if bit = 1 then .instr i else .rejected .portLow

/-- Decode the 40-bit pattern of a send: the header is matched, the checksum constraint is checked (R50). -/
def decodeFrame (bits : BitVec 40) : Decoded :=
  let command := frameBitsByte bits 2
  let value := frameBitsByte bits 3
  if frameBitsByte bits 0 = Config.header1 ∧ frameBitsByte bits 1 = Config.header2 then
    if frameBitsByte bits 4 = checksum command value then .instr (.encSend command value)
    else .rejected .badChecksum
  else .rejected .badHeader

/-- The decoder, total on every key (R56, R67). -/
def decode : Key → Decoded
  | .byteStep bits eqAcc => decodeByteStep bits eqAcc
  | .emission idx command value => decodeEmission idx command value
  | .portFeed bit => decodePort bit .decFeed
  | .portPktValid bit => decodePort bit .decDispatch
  | .portRst bit => decodePort bit .reset
  | .frame bits => decodeFrame bits

/-! ### The encoder -/

/-- The 11-bit key `{ps[2:0], b[7:0]}` (R67). -/
def byteStepBits (ps : Ps) (b : Byte) : BitVec 11 := (psCode ps).setWidth 11 <<< 8 ||| b.setWidth 11

/-- The key of an instruction, in the key space of its row (R67). The operands that an emission's key does not look at are
given as `0x00`, and the test `b == acc` as 0 outside `CHK.PASS`. -/
def encode : Instr → Key
  | .idleH1 => .byteStep (byteStepBits .idle Config.header1) false
  | .idleSkip b => .byteStep (byteStepBits .idle b) false
  | .h1H2 => .byteStep (byteStepBits .sawHeader1 Config.header2) false
  | .h1Resync b => .byteStep (byteStepBits .sawHeader1 b) false
  | .cmdLatch b => .byteStep (byteStepBits .sawHeader2 b) false
  | .valLatch b => .byteStep (byteStepBits .sawCmd b) false
  | .chkPass b => .byteStep (byteStepBits .awaitingChecksum b) true
  | .chkFail b => .byteStep (byteStepBits .awaitingChecksum b) false
  | .decFeed => .portFeed 1
  | .decDispatch => .portPktValid 1
  | .encSend command value => .frame (frameBits command value (checksum command value))
  | .encB0 => .emission 0 Config.resetByte Config.resetByte
  | .encB1 => .emission 1 Config.resetByte Config.resetByte
  | .encB2 command => .emission 2 command Config.resetByte
  | .encB3 value => .emission 3 Config.resetByte value
  | .encB4 command value => .emission 4 command value
  | .reset => .portRst 1

/-! ### The host's flat words -/

/-- A decoded key as an option. -/
def decodedInstr? : Decoded → Option Instr
  | .instr i => some i
  | .rejected _ => none

/-- The key a flat word of the opcode table stands for, by the width of the row (R67), log entry 3. A width of 11 bits (16
in whole bytes) is the byte-step key, with `acc` at its reset value; 3 bits (8 in whole bytes) is the `enc_idx` key, with
the latches at their reset values; 1 bit is the port `feed`; 40 bits is the frame. -/
def tableKey (nbits w : Nat) : Option Key :=
  if nbits = 16 ∨ nbits = 11 then
    if w < 2 ^ 11 then
      some (.byteStep (BitVec.ofNat 11 w) (BitVec.ofNat 8 w == Config.resetByte))
    else none
  else if nbits = 8 ∨ nbits = 3 then
    if w < 2 ^ 3 then some (.emission (BitVec.ofNat 3 w) Config.resetByte Config.resetByte) else none
  else if nbits = 1 then
    if w < 2 then some (.portFeed (BitVec.ofNat 1 w)) else none
  else if nbits = 40 then
    if w < 2 ^ 40 then some (.frame (BitVec.ofNat 40 w)) else none
  else none

/-- The instruction the decoder reads from a flat word of `spec/opcode_table.json` (log entry 3). -/
def decodeTableWord (nbits w : Nat) : Option Instr :=
  match tableKey nbits w with
  | some k => decodedInstr? (decode k)
  | none => none

end Sys2Proof
end

