-- ==== Sys2Proof/Machine/Environment.lean ====
section
/-! DEFINITION. What the outside world can do to the block: the input ports of one clock cycle (R122) and the statements of
the script notation (R63). Plain data that State holds and the step reads, log entry 1. -/

namespace Sys2Proof.Machine

/-- The inputs of one clock cycle (R122) and the bytes the source appends to the RX stream in that cycle (R123). -/
structure Ports where
  rst      : Bool
  feed     : Bool
  txStart  : Bool
  txCmd    : Byte
  txValue  : Byte
  arrivals : List Byte
deriving DecidableEq, Repr

/-- Every input port 0 and no byte arriving (log entry 2). -/
def Ports.quiet : Ports :=
  { rst := false, feed := false, txStart := false, txCmd := 0, txValue := 0, arrivals := [] }

/-- One thing the environment does next. The statements of R63 (transaction level), a clock cycle, and a reset with the
flush of R173; `EXPECT` is a check and no stimulus. -/
inductive Stimulus where
  /-- `RESET` (R63, R170). -/
  | reset
  /-- `RX b0 b1 ...`: the environment appends bytes to the RX stream (R63, R30). -/
  | rx (bytes : List Byte)
  /-- `FEED` (`none`) or `FEED n` (`some n`): one invocation, the source reporting every byte, or at most `n` (R63, D23). -/
  | feed (limit : Option Nat)
  /-- `SEND c, v` (R63, R105). -/
  | send (command value : Byte)
  /-- `LOOP`: the environment moves every byte of the TX stream, in order, to the tail of the RX stream (R63). -/
  | loop
  /-- A `RESET` at which the environment also flushes its buffers: the one that feeds the RX stream, the one that the TX stream
  fills, or both (R173 leaves it to the environment whether it does). At the ports it is a reset cycle in which no byte
  arrives. DESIGN CHOICE, log entry 20. -/
  | resetFlush (dropRx dropTx : Bool)
  /-- One clock cycle with the given inputs (R121, R122). -/
  | cycle (p : Ports)
deriving DecidableEq, Repr

end Sys2Proof.Machine
end

