-- ==== Sys2Proof/Machine/State.lean ====
section
/-! DEFINITION. The whole state: the nine registers of R10, the three streams of R30 to R32, and what the environment does
next (the model's own field, log entry 1). The reasons a step can stop. Reset. -/

namespace Sys2Proof.Machine

/-- The state of one instance. There is no addressable memory (R33); the streams stand in its place. -/
structure State where
  ps         : Ps              -- frame position (R11)
  cmd        : Byte            -- pending command byte (R13)
  val        : Byte            -- pending value byte (R14)
  acc        : Byte            -- pending checksum accumulator (R15)
  decActive  : Bool            -- `dec_active`: an invocation is in progress, port level (R19)
  encBusy    : Bool            -- `enc_busy`: a send is in progress, port level (R20)
  encIdx     : Fin 5           -- `enc_idx`: frame offset of the byte being emitted, 0 to 4 (R20, D20)
  encCmd     : Byte            -- `enc_cmd`: command operand latched at start (R20)
  encVal     : Byte            -- `enc_val`: value operand latched at start (R20)
  rx         : List Byte       -- RX stream, head first (R30)
  tx         : List Byte       -- TX stream, oldest first (R31)
  dispatched : List Packet     -- dispatch stream, oldest first (R32)
  env        : List Stimulus   -- what the environment does next, oldest first (log entry 1)
deriving DecidableEq, Repr

/-- The block has no fault: nothing on the RX stream and no operand of a send makes it fault, stop or signal an error
(R150, R154), so the type has no constructor and nobody raises one (log entry 9). Safe: no step is lost by it. -/
inductive Fault where
deriving DecidableEq, Repr

/-- Why a step has no next state. -/
inductive Refusal where
  /-- Raised by an arm of `exec` for an instruction that has no meaning yet; no arm raises it. Safe: the run stops. -/
  | notModelled (mnemonic : String)
  /-- Raised by `DEC.FEED` (and by the statement `FEED n`) that begins before the previous invocation has returned: the spec
  says the model has no step for it (U2, D16), log entry 6. Safe: the run stops where the source promises nothing. -/
  | nestedFeed
deriving DecidableEq, Repr

/-- The machine right after reset: the register values of R22 and, as in every program of 95_test_vectors.md section 6, all
three streams empty; nothing pending from the environment (log entry 5). -/
def State.reset : State :=
  { ps := .idle
    cmd := Config.resetByte
    val := Config.resetByte
    acc := Config.resetByte
    decActive := false
    encBusy := false
    encIdx := 0
    encCmd := Config.resetByte
    encVal := Config.resetByte
    rx := []
    tx := []
    dispatched := []
    env := [] }

end Sys2Proof.Machine
end

