-- ==== Sys2Proof/Machine/Ops.lean ====
section
/-! DEFINITION. The named operations over registers and streams: the primitives of R8, the register writes of the rules,
the dispatch (the block's analogue of taking an exception, R157), reset, and sequencing of outcomes. -/

namespace Sys2Proof.Machine

/-- The three outcomes of a step of this machine. -/
abbrev Result := Host.Outcome State Fault Refusal

/-- Do one thing, then another on the state it leaves; a fault or a refusal ends the sequence. -/
def andThen (o : Result) (f : State → Result) : Result :=
  match o with
  | .next s => f s
  | .fault r => .fault r
  | .refused r => .refused r

/-! ### Streams -/

/-- The RX stream replaced: what is left of it after a read (R30, R35). -/
def setRx (bytes : List Byte) (s : State) : State := { s with rx := bytes }

/-- What the environment does next replaced: what is left of it after a stimulus (log entry 1). -/
def setEnv (stimuli : List Stimulus) (s : State) : State := { s with env := stimuli }

/-- `RxAvail()`: the RX stream is non-empty at the moment of the query (R34). -/
def rxAvail (s : State) : Bool := !s.rx.isEmpty

/-- `RxRead()`: remove and return the head of the RX stream. Partial: it has no answer on an empty stream, and the block
never issues it there (R35, U3). -/
def rxRead (s : State) : Option (Byte × State) :=
  match s.rx with
  | [] => none
  | b :: rest => some (b, setRx rest s)

/-- The environment appends bytes to the tail of the RX stream (R30). -/
def rxAppend (bytes : List Byte) (s : State) : State := setRx (s.rx ++ bytes) s

/-- `TxWrite(b)`: append a byte to the TX stream; the sink accepts every byte (R36, D14), log entry 12. -/
def txWrite (b : Byte) (s : State) : State := { s with tx := s.tx ++ [b] }

/-- The environment moves every byte of the TX stream to the tail of the RX stream (R63 `LOOP`, R44). -/
def loopBack (s : State) : State := { s with rx := s.rx ++ s.tx, tx := [] }

/-- `Dispatch(c, v)`: append a packet to the dispatch stream (R8, R32, R95); from there `stepWith` calls the consumer (R160). It saves nothing and returns nowhere: the block
has no return operation (R157, R159). -/
def dispatch (p : Packet) (s : State) : State := { s with dispatched := s.dispatched ++ [p] }

/-- The environment flushes its buffers: what waits on the RX stream, on the TX stream, or on both is thrown away (R173). -/
def flush (dropRx dropTx : Bool) (s : State) : State :=
  { s with rx := if dropRx then [] else s.rx, tx := if dropTx then [] else s.tx }

/-! ### Decoder registers -/

/-- `ps <- S` (R8). -/
def setPs (p : Ps) (s : State) : State := { s with ps := p }

/-- `cmd <- b; acc <- b; ps <- SawCmd` (R75). -/
def latchCommand (b : Byte) (s : State) : State := { s with cmd := b, acc := b, ps := .sawCmd }

/-- `val <- b; acc <- (acc + b) mod 256; ps <- AwaitingChecksum` (R76). -/
def latchValue (b : Byte) (s : State) : State :=
  { s with val := b, acc := addMod256 s.acc b, ps := .awaitingChecksum }

/-- `Dispatch(cmd, val); ps <- Idle`, one step, with the register contents from before it (R77, D10). -/
def acceptFrame (s : State) : State := setPs .idle (dispatch ⟨s.cmd, s.val⟩ s)

/-- `dec_active <- 1`: the port-level call of `feed` (R124). -/
def startInvocation (s : State) : State := { s with decActive := true }

/-- `dec_active <- 0`: the port-level return of `feed` (R125, R126). -/
def endInvocation (s : State) : State := { s with decActive := false }

/-! ### Encoder registers -/

/-- The port-level call of `sendMessage`: latch the operands, `enc_idx <- 0`, `enc_busy <- 1` (R132). -/
def startSend (command value : Byte) (s : State) : State :=
  { s with encCmd := command, encVal := value, encIdx := 0, encBusy := true }

/-- After an emission: the next offset, or the end of the send after offset 4 (R133). -/
def advanceSend (s : State) : State :=
  if s.encIdx = 4 then { s with encBusy := false, encIdx := 0 } else { s with encIdx := s.encIdx + 1 }

/-! ### Reset -/

/-- Every register of R10 takes the value of R22; the streams are not touched (R170, R173). An environment that flushes its
buffers at reset, which R173 leaves open, is `Stimulus.resetFlush`. DESIGN CHOICE, log entry 20. -/
def resetRegisters (s : State) : State :=
  { State.reset with rx := s.rx, tx := s.tx, dispatched := s.dispatched, env := s.env }

end Sys2Proof.Machine
end

