-- ==== Sys2Proof/Machine/Flags.lean ====
section
/-! DEFINITION. The block has no flag register (R17). Its two one-bit results are wires of one step: the comparison of the
checksum byte with `acc` (R65), and `done` (R70). Neither is stored. -/

namespace Sys2Proof.Machine

/-- The test `b == acc`, all 8 bits compared (R65). -/
def matchesAcc (b : Byte) (s : State) : Bool := b == s.acc

/-- `done` of a byte-step by the state before it: 1 when the step is a checksum comparison, which is when
`ps = AwaitingChecksum` (R70, R126). -/
def comparesChecksum (s : State) : Bool := decide (s.ps = .awaitingChecksum)

/-- `done` of a byte-step by its operation: 1 for `CHK.PASS` and `CHK.FAIL` (R77, R78), 0 for the others (R71 to R76). -/
def stepDone : Instr → Bool
  | .chkPass _ | .chkFail _ => true
  | .idleH1 | .idleSkip _ | .h1H2 | .h1Resync _ | .cmdLatch _ | .valLatch _ => false
  | .decFeed | .decDispatch | .encSend _ _ | .encB0 | .encB1 | .encB2 _ | .encB3 _ | .encB4 _ _ | .reset => false

end Sys2Proof.Machine
end

