-- ==== Sys2Proof/Machine/Operands.lean ====
section
/-! DEFINITION. Where operands come from: the byte-step that a byte read in a state selects (R55), the emission that
`enc_idx` and the latches select (R133, R134), and the byte of a frame at an offset. -/

namespace Sys2Proof.Machine

/-- The operation a consumed byte selects in this state: the decode table on `ps`, `b` and the test `b == acc` (R55). -/
def byteOperation (s : State) (b : Byte) : Instr := selectByteStep s.ps b (matchesAcc b s)

/-- The key of the byte-step that a consumed byte selects in this state (R67). -/
def byteStepKey (s : State) (b : Byte) : Key := .byteStep (byteStepBits s.ps b) (matchesAcc b s)

/-- The emission that `enc_idx` and the operand latches select (R133). -/
def emissionOperation (s : State) : Instr := selectEmission s.encIdx s.encCmd s.encVal

/-- The key of that emission (R67). -/
def emissionKey (s : State) : Key := .emission (BitVec.ofNat 3 s.encIdx.val) s.encCmd s.encVal

/-- The frame byte at an offset: 0 gives `HEADER_1`, 1 `HEADER_2`, 2 the command, 3 the value, 4 the checksum, computed when
it is emitted and not stored (R134). -/
def frameByteAt (idx : Fin 5) (command value : Byte) : Byte :=
  match idx with
  | 0 => Config.header1
  | 1 => Config.header2
  | 2 => command
  | 3 => value
  | 4 => checksum command value

end Sys2Proof.Machine
end

