-- ==== Sys2Proof/Machine/Encoder.lean ====
section
/-! DEFINITION. The Encoder (42_encoder.md): the five byte emissions and the send they make up. -/

namespace Sys2Proof.Machine

/-- `ENC.B0` (R106): `TxWrite(HEADER_1)`. -/
def execEncB0 (s : State) : Result := .next (txWrite Config.header1 s)

/-- `ENC.B1` (R107): `TxWrite(HEADER_2)`. -/
def execEncB1 (s : State) : Result := .next (txWrite Config.header2 s)

/-- `ENC.B2` (R108): `TxWrite(command)`, no escaping. -/
def execEncB2 (command : Byte) (s : State) : Result := .next (txWrite command s)

/-- `ENC.B3` (R109): `TxWrite(value)`, no escaping. -/
def execEncB3 (value : Byte) (s : State) : Result := .next (txWrite value s)

/-- `ENC.B4` (R110): `TxWrite((command + value) mod 256)`. -/
def execEncB4 (command value : Byte) (s : State) : Result := .next (txWrite (checksum command value) s)

/-- The five writes of a send, in order, with no condition between them (R105). -/
def writeFrame (command value : Byte) (s : State) : Result :=
  andThen (execEncB0 s) fun s =>
  andThen (execEncB1 s) fun s =>
  andThen (execEncB2 command s) fun s =>
  andThen (execEncB3 value s) fun s =>
  execEncB4 command value s

/-- `ENC.SEND` (R105). At the transaction level no send is ever in progress (D12). A transaction-level send that meets a
port-level one is ignored and not remembered, as R135 says of `tx_start`. DESIGN CHOICE, log entry 10. -/
def execEncSend (command value : Byte) (s : State) : Result :=
  if s.encBusy then .next s else writeFrame command value s

end Sys2Proof.Machine
end

