-- ==== Sys2Proof/Machine/ByteStep.lean ====
section
/-! DEFINITION. The Decoder's byte-steps (40_decoder_byte_step.md): the meaning of each of the eight operations, and the
step function `DecByte` of R70. The byte is already removed from the RX stream by `RxRead()`. -/

namespace Sys2Proof.Machine

/-- `IDLE.H1` (R72): `ps <- SawHeader1`. -/
def execIdleH1 (s : State) : Result := .next (setPs .sawHeader1 s)

/-- `IDLE.SKIP` (R71): `ps <- Idle`; the byte is discarded. -/
def execIdleSkip (_b : Byte) (s : State) : Result := .next (setPs .idle s)

/-- `H1.H2` (R73): `ps <- SawHeader2`. -/
def execH1H2 (s : State) : Result := .next (setPs .sawHeader2 s)

/-- `H1.RESYNC` (R74): `ps <- Idle`; the byte is discarded, also when it is `HEADER_1`. -/
def execH1Resync (_b : Byte) (s : State) : Result := .next (setPs .idle s)

/-- `CMD.LATCH` (R75): `cmd <- b; acc <- b; ps <- SawCmd`. -/
def execCmdLatch (b : Byte) (s : State) : Result := .next (latchCommand b s)

/-- `VAL.LATCH` (R76): `val <- b; acc <- (acc + b) mod 256; ps <- AwaitingChecksum`. -/
def execValLatch (b : Byte) (s : State) : Result := .next (latchValue b s)

/-- `CHK.PASS` (R77): `Dispatch(cmd, val); ps <- Idle`. -/
def execChkPass (_b : Byte) (s : State) : Result := .next (acceptFrame s)

/-- `CHK.FAIL` (R78): `ps <- Idle`; nothing is dispatched and nothing is recorded. -/
def execChkFail (_b : Byte) (s : State) : Result := .next (setPs .idle s)

/-- `DecByte(b)` (R70): what the Decoder does with one byte already removed from the RX stream, arm by arm as R70 writes
it. -/
def decByte (s : State) (b : Byte) : State :=
  match s.ps with
  | .idle => if b = Config.header1 then setPs .sawHeader1 s else setPs .idle s
  | .sawHeader1 => if b = Config.header2 then setPs .sawHeader2 s else setPs .idle s
  | .sawHeader2 => latchCommand b s
  | .sawCmd => latchValue b s
  | .awaitingChecksum => if matchesAcc b s then acceptFrame s else setPs .idle s

end Sys2Proof.Machine
end

