-- ==== Sys2Proof/Machine/Feed.lean ====
section
/-! DEFINITION. The Decoder's invocation and dispatch (41_decoder_feed_dispatch.md), transaction level. -/

namespace Sys2Proof.Machine

/-- The loop of `DEC.FEED` (R90), the source answering at most `n` queries of `RxAvail()` with 1 (D23). It ends when the
source reports no byte (R91 a) or when the byte-step just performed was a checksum comparison (R91 b). -/
def feedRun : Nat → State → State
  | 0, s => s
  | n + 1, s =>
    match rxRead s with
    | none => s
    | some (b, s1) => if comparesChecksum s1 then decByte s1 b else feedRun n (decByte s1 b)

/-- One invocation in which the source reports at most `n` bytes available. An invocation that begins before the previous
one has returned has no step (U2, D16), log entry 6. -/
def invoke (n : Nat) (s : State) : Result :=
  if s.decActive then .refused .nestedFeed else .next (feedRun n s)

/-- `DEC.FEED` (R90): an invocation in which every byte then on the RX stream is reported available (R63). -/
def execDecFeed (s : State) : Result := invoke s.rx.length s

/-- `DEC.DISPATCH` (R95): `Dispatch(cmd, val)`, the packet of the registers as they stand. -/
def execDecDispatch (s : State) : Result := .next (dispatch ⟨s.cmd, s.val⟩ s)

end Sys2Proof.Machine
end

