-- ==== Sys2Proof/Machine/Reset.lean ====
section
/-! DEFINITION. `RESET` (70_reset_and_hazards.md). -/

namespace Sys2Proof.Machine

/-- `RESET` (R170): every register takes its reset value, whatever is in progress; nothing is dispatched, consumed or
written, and the streams are not touched (R173). -/
def execReset (s : State) : Result := .next (resetRegisters s)

end Sys2Proof.Machine
end

