-- ==== Sys2Proof/Machine/Dispatch.lean ====
section
/-! DEFINITION. One arm per operation of R57. -/

namespace Sys2Proof.Machine

def exec (i : Instr) (s : State) : Host.Outcome State Fault Refusal :=
  match i with
  -- the Decoder's byte-steps (40_decoder_byte_step.md)
  | .idleH1 => Sys2Proof.Machine.execIdleH1 s
  | .idleSkip b => Sys2Proof.Machine.execIdleSkip b s
  | .h1H2 => Sys2Proof.Machine.execH1H2 s
  | .h1Resync b => Sys2Proof.Machine.execH1Resync b s
  | .cmdLatch b => Sys2Proof.Machine.execCmdLatch b s
  | .valLatch b => Sys2Proof.Machine.execValLatch b s
  | .chkPass b => Sys2Proof.Machine.execChkPass b s
  | .chkFail b => Sys2Proof.Machine.execChkFail b s
  -- invocation and dispatch (41_decoder_feed_dispatch.md)
  | .decFeed => Sys2Proof.Machine.execDecFeed s
  | .decDispatch => Sys2Proof.Machine.execDecDispatch s
  -- the Encoder (42_encoder.md)
  | .encSend command value => Sys2Proof.Machine.execEncSend command value s
  | .encB0 => Sys2Proof.Machine.execEncB0 s
  | .encB1 => Sys2Proof.Machine.execEncB1 s
  | .encB2 command => Sys2Proof.Machine.execEncB2 command s
  | .encB3 value => Sys2Proof.Machine.execEncB3 value s
  | .encB4 command value => Sys2Proof.Machine.execEncB4 command value s
  -- reset (70_reset_and_hazards.md)
  | .reset => Sys2Proof.Machine.execReset s

end Sys2Proof.Machine
end

