-- ==== Sys2Proof/Machine/Cycle.lean ====
section
/-! DEFINITION. One clock cycle of the port binding (43_port_binding.md, all of it the spec's own decisions D3 to D26): the
output ports, the Decoder's part, the Encoder's part, reset. -/

namespace Sys2Proof.Machine

/-- The output ports of R122. -/
structure Outputs where
  feedBusy : Bool
  rxPop    : Bool
  pktValid : Bool
  pktCmd   : Byte
  pktValue : Byte
  txBusy   : Bool
  txValid  : Bool
  txData   : Byte
deriving DecidableEq, Repr

/-- The state as it stands during a cycle: the bytes that arrive in the cycle are on the RX stream in that cycle (R123, trace
T1b), log entry 7. -/
def present (p : Ports) (s : State) : State := rxAppend p.arrivals s

/-- `rx_pop = (not rst) and dec_active and rx_avail` (R127). -/
def rxPop (p : Ports) (s : State) : Bool := !p.rst && s.decActive && rxAvail (present p s)

/-- `rx_data == acc`, where there is a head byte (R123, R128). -/
def headMatchesAcc (s : State) : Bool :=
  match s.rx with
  | [] => false
  | b :: _ => matchesAcc b s

/-- The output ports during a cycle that begins in `s` with the inputs `p` (R127, R128, R129, R134). `pktCmd`, `pktValue`
mean nothing unless `pktValid` is 1, and `txData` unless `txValid` is 1 (D25), log entry 11. -/
def outputs (p : Ports) (s : State) : Outputs :=
  { feedBusy := s.decActive
    rxPop := rxPop p s
    pktValid := rxPop p s && comparesChecksum s && headMatchesAcc (present p s)
    pktCmd := s.cmd
    pktValue := s.val
    txBusy := s.encBusy
    txValid := !p.rst && s.encBusy
    txData := frameByteAt s.encIdx s.encCmd s.encVal }

/-- The invocation after a byte-step: it ends when the step was a checksum comparison (R126). -/
def afterByteStep (i : Instr) (s : State) : Result :=
  .next (if stepDone i then endInvocation s else s)

/-- The Decoder's part of a cycle with `rst = 0` (R124 to R126, R130): accept `feed` when no invocation is in progress; in an
invocation, end it when the source is empty, else pop one byte and perform the byte-step it selects. -/
def decoderCycle (p : Ports) (s : State) : Result :=
  if s.decActive then
    match rxRead s with
    | none => .next (endInvocation s)
    | some (b, s1) =>
      andThen (exec (byteOperation s1 b) s1) (afterByteStep (byteOperation s1 b))
  else if p.feed then .next (startInvocation s)
  else .next s

/-- The Encoder's part of a cycle with `rst = 0` (R132, R133, R135): accept `tx_start` when no send is in progress; in a send,
perform the emission `enc_idx` selects and move on. -/
def encoderCycle (p : Ports) (s : State) : Result :=
  if s.encBusy then
    andThen (exec (emissionOperation s) s) fun s1 => .next (advanceSend s1)
  else if p.txStart then .next (startSend p.txCmd p.txValue s)
  else .next s

/-- One clock cycle: `rst` overrides everything (R138); otherwise the Decoder and the Encoder both act, and neither sees what
the other does (R139). -/
def cycle (p : Ports) (s : State) : Result :=
  if p.rst then exec .reset (present p s)
  else andThen (decoderCycle p (present p s)) (encoderCycle p)

end Sys2Proof.Machine
end

