-- ==== Sys2Proof/Machine/Script.lean ====
section
/-! DEFINITION. What one stimulus of the environment makes the machine do (R63 and the clock), log entries 1, 2 and 18; and
placing an operation so that the very next step runs it, log entry 4. -/

namespace Sys2Proof.Machine

/-- One stimulus: a statement of the script notation runs its operation whole, with no clock edge; `cycle` is one clock
cycle. -/
def runStimulus (e : Stimulus) (s : State) : Result :=
  match e with
  | .reset => exec .reset s
  | .rx bytes => .next (rxAppend bytes s)
  | .feed none => exec .decFeed s
  | .feed (some n) => invoke n s
  | .send command value => exec (.encSend command value) s
  | .loop => .next (loopBack s)
  | .resetFlush dropRx dropTx => andThen (exec .reset s) fun t => .next (flush dropRx dropTx t)
  | .cycle p => cycle p s

/-- The next thing that happens: the oldest pending stimulus, which is used up, or a quiet clock cycle when none is pending
(log entry 2). -/
def runNext (s : State) : Result :=
  match s.env with
  | [] => cycle Ports.quiet s
  | e :: rest => runStimulus e (setEnv rest s)

/-- Place a stimulus before all others. -/
def pushStimulus (e : Stimulus) (s : State) : State := setEnv (e :: s.env) s

/-- Place a byte-step: the Decoder in the state of the key inside an invocation, the byte at the head of the RX stream, no
send in progress, a quiet cycle next. In `AwaitingChecksum` `acc` is put at the value the flat word's test uses. -/
def placeByteStep (ps : Ps) (b : Byte) (s : State) : State :=
  pushStimulus (.cycle Ports.quiet)
    { s with
      ps := ps
      acc := if ps = .awaitingChecksum then Config.resetByte else s.acc
      rx := b :: s.rx
      decActive := true
      encBusy := false }

/-- Place an emission: a send in progress at the key's offset with the key's operands, no invocation, a quiet cycle next. -/
def placeEmission (idx : Fin 5) (command value : Byte) (s : State) : State :=
  pushStimulus (.cycle Ports.quiet)
    { s with encBusy := true, encIdx := idx, encCmd := command, encVal := value, decActive := false }

/-- Place the operation a key selects; a key that selects none, or one that only `CHK.PASS` performs, places nothing. -/
def placeKey (k : Key) (s : State) : State :=
  match k with
  | .byteStep bits _ =>
    match psOfCode (bits.extractLsb' 8 3) with
    | some ps => placeByteStep ps (bits.extractLsb' 0 8) s
    | none => s
  | .emission idx command value =>
    match offsetOfCode idx with
    | some k => placeEmission k command value s
    | none => s
  | .portFeed bit => if bit = 1 then pushStimulus (.feed none) { s with decActive := false } else s
  | .portPktValid _ => s
  | .portRst bit => if bit = 1 then pushStimulus .reset s else s
  | .frame bits =>
    match decodeFrame bits with
    | .instr (.encSend command value) => pushStimulus (.send command value) { s with encBusy := false }
    | _ => s

/-- Place the operation of a flat word of the opcode table (log entry 4). -/
def placeTableWord (s : State) (nbits w : Nat) : State :=
  match tableKey nbits w with
  | some k => placeKey k s
  | none => s

end Sys2Proof.Machine
end

