-- ==== Sys2Proof/Machine/Consumer.lean ====
section
/-! DEFINITION. The packet consumer as a parameter of the machine (R160, D18), and the step of the machine with a given
consumer, log entry 13. -/

namespace Sys2Proof.Machine

/-- A packet consumer: any function that receives the packets (R160). It always returns (U7) and returns nothing to the
Decoder; what it may do to the block is call `sendMessage` (R159). `sends` says which pairs it asks the Encoder to send, in
order, when a packet is handed over, given every packet handed over so far, that packet last. It never calls `feed`. -/
structure Consumer where
  sends : List Packet → List Packet

/-- The consumer that asks for nothing. -/
def Consumer.silent : Consumer := ⟨fun _ => []⟩

/-- The next step is a clock cycle, so a consumer speaks through the ports in it. -/
def atPorts (s : State) : Bool :=
  match s.env with
  | [] => true
  | .cycle _ :: _ => true
  | .reset :: _ | .rx _ :: _ | .feed _ :: _ | .send _ _ :: _ | .loop :: _ | .resetFlush _ _ :: _ => false

/-- The request for one send: a call of `sendMessage` (R105), or a cycle with `tx_start` at 1 (R132). At the ports it is made
once, and `tx_busy` is not waited for: a request that meets a busy Encoder is lost, as R135 and R189 say of any such request.
That a consumer does not wait, as R189 asks an application to, is a DESIGN CHOICE, log entry 21. -/
def sendRequest (clocked : Bool) (p : Packet) : Stimulus :=
  if clocked then .cycle { Ports.quiet with txStart := true, txCmd := p.command, txValue := p.value }
  else .send p.command p.value

/-- The consumer is called once when the step from `before` to `after` handed over a packet (R95), and what it asks for comes
before everything else the environment does; otherwise it is not called. At the ports its requests follow each other cycle by
cycle from the next one on, so with `enc_busy` at 1 the first of them is lost, and of several only the first can be accepted.
DESIGN CHOICE, log entry 21. -/
def Consumer.respond (k : Consumer) (before after : State) : State :=
  if after.dispatched = before.dispatched then after
  else setEnv ((k.sends after.dispatched).map (sendRequest (atPorts before)) ++ after.env) after

/-- One step of the machine whose Decoder is bound to the consumer `k` (R160). -/
def stepWith (k : Consumer) (s : State) : Result := andThen (runNext s) fun t => .next (k.respond s t)

end Sys2Proof.Machine
end

