-- ==== Sys2Proof/Machine/Step.lean ====
section
/-! DEFINITION. The step of the machine, and the placing of a flat word where the step fetches. -/

namespace Sys2Proof.Machine

/-- One step: the oldest pending stimulus of the environment, or a quiet clock cycle (log entries 1 and 2). The consumer is
the one that asks for nothing, so that what a consumer does stands in the script like everything else the environment does
(log entry 13); `stepWith` takes any other. -/
def step (s : State) : Host.Outcome State Fault Refusal := stepWith Consumer.silent s

/-- `s` with the operation of a flat word of the opcode table as the very next thing the machine runs (log entry 4). -/
def State.withFetchWord (s : State) (nbits w : Nat) : State := placeTableWord s nbits w

end Sys2Proof.Machine
end

