-- ==== Sys2Proof/Machine/System.lean ====
section
/-! DEFINITION. A system of several channels: independent copies of the block that share no state and no stream (R163, D24),
log entry 16. -/

namespace Sys2Proof.Machine

/-- The channels of a system, one instance each. -/
structure System where
  channels : List State
deriving DecidableEq, Repr

/-- A system of `Config.nChannels` fresh instances (R5, R163). -/
def System.reset : System := { channels := List.replicate Config.nChannels State.reset }

/-- One step of channel `k`: the other channels keep their states; a step that the channel refuses, or a channel that does
not exist, leaves the system where it is and answers `none`. -/
def System.stepChannel (k : Nat) (sys : System) : Option System :=
  match sys.channels[k]? with
  | none => none
  | some s =>
    match step s with
    | .next t => some { channels := sys.channels.set k t }
    | .fault _ => none
    | .refused _ => none

end Sys2Proof.Machine
end

