-- ==== Sys2Proof/Safety.lean ====
section
/-! DEFINITION. The terms in which claims are stated: folds of byte-steps, invocations as spans of bytes, the invariants that
every step keeps, the views of the two agents, and equality up to stale registers. -/

namespace Sys2Proof.Safety

open Sys2Proof.Machine

/-- `fold DecByte s B` (R103): the bytes of `B` consumed one after the other. -/
def consume (B : List Byte) (s : State) : State := B.foldl decByte s

/-- The byte that follows `pre` is compared with the accumulator (R70 `done`). -/
def ComparesAfter (s : State) (pre : List Byte) : Prop := (consume pre s).ps = .awaitingChecksum

/-- No byte of `B` follows a checksum comparison made in `B`: what one invocation may consume (R91 b). -/
def OneAttempt (s : State) (B : List Byte) : Prop :=
  ∀ pre b post, B = pre ++ b :: post → ComparesAfter s pre → post = []

/-- The last byte of `B` is a checksum comparison (R91 b). -/
def EndsCompared (s : State) (B : List Byte) : Prop := ∃ pre b, B = pre ++ [b] ∧ ComparesAfter s pre

/-- The accumulator holds the sum of what the open frame attempt has latched (R15). -/
def AccInv (s : State) : Prop :=
  (s.ps = .sawCmd → s.acc = s.cmd) ∧ (s.ps = .awaitingChecksum → s.acc = checksum s.cmd s.val)

/-- While no send is in progress the byte index is 0 (R132, R133, R22). -/
def EncInv (s : State) : Prop := s.encBusy = false → s.encIdx = 0

/-- The invariant that every step keeps. -/
def MachineInv (s : State) : Prop := AccInv s ∧ EncInv s

/-- Everything the Decoder reads or writes (R33, R139). -/
def SameDecoder (s t : State) : Prop :=
  s.ps = t.ps ∧ s.cmd = t.cmd ∧ s.val = t.val ∧ s.acc = t.acc ∧ s.decActive = t.decActive ∧ s.rx = t.rx ∧
    s.dispatched = t.dispatched

/-- Everything the Encoder reads or writes (R33, R139). -/
def SameEncoder (s t : State) : Prop :=
  s.encBusy = t.encBusy ∧ s.encIdx = t.encIdx ∧ s.encCmd = t.encCmd ∧ s.encVal = t.encVal ∧ s.tx = t.tx

/-- Two states that differ at most in data registers that no rule reads before it writes them (R23). -/
def SameUpToStale (s t : State) : Prop :=
  t = { s with cmd := t.cmd, val := t.val, acc := t.acc } ∧
  (s.ps = .sawCmd → t.cmd = s.cmd ∧ t.acc = s.acc) ∧
  (s.ps = .awaitingChecksum → t.cmd = s.cmd ∧ t.val = s.val ∧ t.acc = s.acc)

/-- The Decoder's four registers and its output agree (R10, R103). -/
def SameRegisters (s t : State) : Prop :=
  s.ps = t.ps ∧ s.cmd = t.cmd ∧ s.val = t.val ∧ s.acc = t.acc ∧ s.dispatched = t.dispatched

/-- A run of clock cycles. -/
def runCycles : List Ports → State → Result
  | [], s => .next s
  | p :: ps, s => andThen (cycle p s) (runCycles ps)

/-- A run of steps. -/
def runSteps : Nat → State → Result
  | 0, s => .next s
  | n + 1, s => andThen (step s) (runSteps n)

/-- A run of steps of the machine bound to the consumer `k` (R160). -/
def runStepsWith (k : Consumer) : Nat → State → Result
  | 0, s => .next s
  | n + 1, s => andThen (stepWith k s) (runStepsWith k n)

/-- The statements `RX`, `FEED`, `FEED n` and `SEND` of R63: traffic at the transaction level. -/
def traffic : Stimulus → Bool
  | .rx _ | .feed _ | .send _ _ => true
  | .reset | .loop | .resetFlush _ _ | .cycle _ => false

/-- The bytes that `RX` statements of a script make available, in order (R63). -/
def arriving : List Stimulus → List Byte
  | [] => []
  | .rx bytes :: rest => bytes ++ arriving rest
  | .reset :: rest | .feed _ :: rest | .send _ _ :: rest | .loop :: rest | .cycle _ :: rest => arriving rest
  | .resetFlush _ _ :: rest => arriving rest

/-- The byte-steps and the dispatch: the operations of the Decoder that are one step (R57). -/
def decoderStep : Instr → Bool
  | .idleH1 | .idleSkip _ | .h1H2 | .h1Resync _ | .cmdLatch _ | .valLatch _ | .chkPass _ | .chkFail _ => true
  | .decDispatch => true
  | .decFeed => false
  | .encSend _ _ | .encB0 | .encB1 | .encB2 _ | .encB3 _ | .encB4 _ _ => false
  | .reset => false

/-- The operations of the Encoder (R57). -/
def encoderOperation : Instr → Bool
  | .encSend _ _ | .encB0 | .encB1 | .encB2 _ | .encB3 _ | .encB4 _ _ => true
  | .idleH1 | .idleSkip _ | .h1H2 | .h1Resync _ | .cmdLatch _ | .valLatch _ | .chkPass _ | .chkFail _ => false
  | .decDispatch | .decFeed | .reset => false

end Sys2Proof.Safety
end

