-- ==== Sys2Proof/Certificates/Slice0/Obligations.lean ====
section
/-! DEFINITION. The statements for the provers, family by family: encodings, what a step runs, the byte-steps, invocations and
their laws, the Encoder, the port binding, reset, and the rules of the whole machine. -/

open Sys2Proof Sys2Proof.Machine Sys2Proof.Safety

/-! ### Encodings -/

/-- Every well-formed instruction is what the decoder reads from its key, every operand at every value (the opcode-table keys
of spec/30_encoding.md section 2). -/
def Obligations.EncodeThenDecodeGivesInstruction : Prop :=
  ∀ i : Instr, i.wf = true → decode (encode i) = .instr i

/-- What the decoder reads is well-formed and its key has the bits that were decoded; the test `b == acc` matters in
`AwaitingChecksum` only, and of an emission's operands the command is kept at offsets 2 and 4, the value at offsets 3 and
4. -/
def Obligations.DecodedInstructionReencodesToItsKey : Prop :=
  ∀ (k : Key) (i : Instr), decode k = .instr i →
    i.wf = true ∧ decode (encode i) = .instr i ∧
    (match k with
     | .byteStep bits eqAcc => ∃ e, encode i = .byteStep bits e ∧
         (psOfCode (bits.extractLsb' 8 3) = some .awaitingChecksum → e = eqAcc)
     | .emission idx c v => ∃ c' v', encode i = .emission idx c' v' ∧
         (idx = 2 ∨ idx = 4 → c' = c) ∧ (idx = 3 ∨ idx = 4 → v' = v)
     | .portFeed bit => encode i = .portFeed bit
     | .portPktValid bit => encode i = .portPktValid bit
     | .portRst bit => encode i = .portRst bit
     | .frame bits => encode i = .frame bits)

/-- In each key space exactly these keys are rejected, for this reason: codes 5 to 7 of `ps` and of `enc_idx`, a port at 0, and
the 40-bit patterns that are no frame of R50. A pattern is the send of `c`, `v` exactly when it is their frame. -/
def Obligations.ReservedKeysAreRejected : Prop :=
  (∀ (bits : BitVec 11) (e : Bool),
    ((∃ r, decode (.byteStep bits e) = .rejected r) ↔ 5 ≤ (bits.extractLsb' 8 3).toNat) ∧
    (decode (.byteStep bits e) = .rejected .unusedPsCode ↔ 5 ≤ (bits.extractLsb' 8 3).toNat)) ∧
  (∀ (idx : BitVec 3) (c v : Byte),
    ((∃ r, decode (.emission idx c v) = .rejected r) ↔ 5 ≤ idx.toNat) ∧
    (decode (.emission idx c v) = .rejected .unusedEncIdx ↔ 5 ≤ idx.toNat)) ∧
  (∀ bit : BitVec 1,
    ((∃ r, decode (.portFeed bit) = .rejected r) ↔ bit = 0) ∧ (decode (.portFeed bit) = .rejected .portLow ↔ bit = 0) ∧
    ((∃ r, decode (.portPktValid bit) = .rejected r) ↔ bit = 0) ∧
    (decode (.portPktValid bit) = .rejected .portLow ↔ bit = 0) ∧
    ((∃ r, decode (.portRst bit) = .rejected r) ↔ bit = 0) ∧ (decode (.portRst bit) = .rejected .portLow ↔ bit = 0)) ∧
  (∀ bits : BitVec 40,
    ((∃ r, decode (.frame bits) = .rejected r) ↔ ¬ ∃ c v, bits = frameBits c v (checksum c v)) ∧
    (∀ c v : Byte, decode (.frame bits) = .instr (.encSend c v) ↔ bits = frameBits c v (checksum c v)))

/-- Words written out from the spec's encodings of R67 and R50 decode to what they stand for. -/
def Obligations.SpecWordsDecode : Prop :=
  decode (.byteStep 0b00011111111 false) = .instr .idleH1 ∧
  decode (.byteStep 0b00001000001 false) = .instr (.idleSkip 0x41) ∧
  decode (.byteStep 0b00111111110 false) = .instr .h1H2 ∧
  decode (.byteStep 0b01000000001 false) = .instr (.cmdLatch 0x01) ∧
  decode (.byteStep 0b10000101011 true) = .instr (.chkPass 0x2B) ∧
  decode (.byteStep 0b10000101100 false) = .instr (.chkFail 0x2C) ∧
  decode (.portFeed 1) = .instr .decFeed ∧
  decode (.portPktValid 1) = .instr .decDispatch ∧
  decode (.emission 0b100 0x01 0x2A) = .instr (.encB4 0x01 0x2A) ∧
  decode (.frame 0xFFFE012A2B) = .instr (.encSend 0x01 0x2A) ∧
  decode (.portRst 1) = .instr .reset

/-- R55: the decode table is complete and its rows exclude each other; the row that applies names the operation and the next
`ps`; the choice looks at `ps` and the byte, and at `acc` in `AwaitingChecksum` only. -/
def Obligations.EveryByteSelectsExactlyOneRow : Prop :=
  (∀ (s : State) (b : Byte), ∃ r : ByteRow,
    byteRows.filter (fun r => rowApplies r s.ps b s.acc) = [r] ∧
    mnemonicOf (byteOperation s b) = r.mnemonic ∧ (decByte s b).ps = r.next) ∧
  (∀ (s t : State) (b : Byte), s.ps = t.ps → (s.ps = .awaitingChecksum → s.acc = t.acc) →
    byteOperation s b = byteOperation t b)

/-- Valid frames (R53) and packets are one to one: a sequence is a valid frame exactly when it is the frame of some command
and value, it then encodes that packet, and two packets with the same frame are the same. -/
def Obligations.ValidFramesAndPacketsAreOneToOne : Prop :=
  (∀ bytes : List Byte, validFrame bytes = true ↔ ∃ c v, bytes = frameBytes c v) ∧
  (∀ c v : Byte, framePacket (frameBytes c v) = some ⟨c, v⟩) ∧
  (∀ c v c' v' : Byte, frameBytes c v = frameBytes c' v' → c = c' ∧ v = v')

/-- The one arithmetic operation (R64): wraparound by 256, commutative, associative, and for a fixed operand a bijection. -/
def Obligations.AdditionWrapsModulo256 : Prop :=
  ∀ a b c : Byte,
    (addMod256 a b).toNat = (if a.toNat + b.toNat ≤ 255 then a.toNat + b.toNat else a.toNat + b.toNat - 256) ∧
    addMod256 a b = addMod256 b a ∧ addMod256 (addMod256 a b) c = addMod256 a (addMod256 b c) ∧
    Function.Bijective (addMod256 a)

/-! ### What a step runs -/

/-- In a clock cycle of an invocation with a byte available, the key of that byte decodes to a well-formed instruction, and the
step is its `exec` on the state with the byte removed, then the end of the invocation if the step was a comparison. -/
def Obligations.StepRunsTheSelectedByteStep : Prop :=
  (∀ (s : State) (p : Ports) (more : List Stimulus) (b : Byte) (rest : List Byte),
    s.env = .cycle p :: more → p.rst = false → p.txStart = false → s.encBusy = false → s.decActive = true →
    s.rx ++ p.arrivals = b :: rest →
    ∃ i, decode (byteStepKey s b) = .instr i ∧ i.wf = true ∧
      step s = andThen (exec i (setEnv more (setRx rest s)))
        (fun t => .next (if stepDone i then endInvocation t else t))) ∧
  (∀ (s : State) (b : Byte) (rest : List Byte),
    s.env = [] → s.encBusy = false → s.decActive = true → s.rx = b :: rest →
    ∃ i, decode (byteStepKey s b) = .instr i ∧ i.wf = true ∧
      step s = andThen (exec i (setRx rest s)) (fun t => .next (if stepDone i then endInvocation t else t)))

/-- In a clock cycle of a send, the key of `enc_idx` decodes to a well-formed emission, and the step is its `exec`, then the next
offset or the end of the send. That a step uses up one stimulus, and that it is a quiet cycle when the script is empty, is the
model's choice, log entries 1 and 2. -/
def Obligations.StepRunsTheSelectedEmission : Prop :=
  (∀ (s : State) (p : Ports) (more : List Stimulus),
    s.env = .cycle p :: more → p.rst = false → p.feed = false → s.decActive = false → s.encBusy = true →
    ∃ i, decode (emissionKey s) = .instr i ∧ i.wf = true ∧
      step s = andThen (exec i (setEnv more (setRx (s.rx ++ p.arrivals) s))) (fun t => .next (advanceSend t))) ∧
  (∀ s : State, s.env = [] → s.decActive = false → s.encBusy = true →
    ∃ i, decode (emissionKey s) = .instr i ∧ i.wf = true ∧
      step s = andThen (exec i s) (fun t => .next (advanceSend t)))

/-- A statement of the script notation (R63) runs the operation it names, which is what the operation's key decodes to; a reset
with a flush of R173 is `RESET` and then empties the flushed streams (log entry 20); a reset cycle runs `RESET`. -/
def Obligations.StepRunsTheScriptStatement : Prop :=
  ∀ (s : State) (more : List Stimulus),
    (s.env = .reset :: more → decode (.portRst 1) = .instr .reset ∧ step s = exec .reset (setEnv more s)) ∧
    (s.env = .feed none :: more →
      decode (.portFeed 1) = .instr .decFeed ∧ step s = exec .decFeed (setEnv more s)) ∧
    (∀ c v, s.env = .send c v :: more →
      decode (.frame (frameBits c v (checksum c v))) = .instr (.encSend c v) ∧
      step s = exec (.encSend c v) (setEnv more s)) ∧
    (∀ bytes, s.env = .rx bytes :: more → step s = .next { s with rx := s.rx ++ bytes, env := more }) ∧
    (s.env = .loop :: more → step s = .next { s with rx := s.rx ++ s.tx, tx := [], env := more }) ∧
    (∀ dropRx dropTx, s.env = .resetFlush dropRx dropTx :: more →
      step s = andThen (exec .reset (setEnv more s)) fun t => .next { t with
        rx := if dropRx then [] else t.rx, tx := if dropTx then [] else t.tx }) ∧
    (∀ p, s.env = .cycle p :: more → p.rst = true →
      step s = exec .reset (setEnv more (setRx (s.rx ++ p.arrivals) s)))

/-! ### The byte-steps -/

/-- R71, `IDLE.SKIP`: in `Idle` every byte but `HEADER_1` is discarded, nothing is written or dispatched, `done` is 0, and any
number of such steps leaves the Decoder in `Idle`. -/
def Obligations.IdleSkipDiscardsTheByte : Prop :=
  ∀ (s : State) (b : Byte), s.ps = .idle → b ≠ 0xFF →
    byteOperation s b = .idleSkip b ∧ exec (.idleSkip b) s = .next s ∧ stepDone (.idleSkip b) = false ∧
    (∀ B : List Byte, (0xFF : Byte) ∉ B → consume B s = s)

/-- R72, `IDLE.H1`: in `Idle` the byte `HEADER_1` moves `ps` to `SawHeader1` and writes nothing else; it is the only step that
leaves `Idle`. -/
def Obligations.IdleH1BeginsAFrameAttempt : Prop :=
  ∀ s : State, s.ps = .idle →
    byteOperation s 0xFF = .idleH1 ∧ exec .idleH1 s = .next { s with ps := .sawHeader1 } ∧ stepDone .idleH1 = false ∧
    (∀ b : Byte, (decByte s b).ps ≠ .idle → b = 0xFF ∧ byteOperation s b = .idleH1)

/-- R73, `H1.H2`: in `SawHeader1` the byte `HEADER_2` moves `ps` to `SawHeader2` and writes nothing else; the next two bytes are
accepted whatever they are. -/
def Obligations.H1H2CompletesTheHeader : Prop :=
  ∀ s : State, s.ps = .sawHeader1 →
    byteOperation s 0xFE = .h1H2 ∧ exec .h1H2 s = .next { s with ps := .sawHeader2 } ∧ stepDone .h1H2 = false ∧
    (∀ c v : Byte, (consume [0xFE, c, v] s).ps = .awaitingChecksum)

/-- R74, `H1.RESYNC`: in `SawHeader1` every byte but `HEADER_2`, `HEADER_1` included, returns the Decoder to `Idle`, discards
the byte and does not set `done`; so `FF FF FE` from `Idle` ends in `Idle`. -/
def Obligations.H1ResyncReturnsToIdle : Prop :=
  ∀ (s : State) (b : Byte), s.ps = .sawHeader1 → b ≠ 0xFE →
    byteOperation s b = .h1Resync b ∧ exec (.h1Resync b) s = .next { s with ps := .idle } ∧
    stepDone (.h1Resync b) = false ∧
    (∀ t : State, t.ps = .idle → consume [0xFF, 0xFF, 0xFE] t = t)

/-- R75, `CMD.LATCH`: in `SawHeader2` every byte, `FF` and `FE` included, is stored as the command and starts the accumulator;
`val` keeps its content. -/
def Obligations.CmdLatchStoresTheCommand : Prop :=
  ∀ (s : State) (b : Byte), s.ps = .sawHeader2 →
    byteOperation s b = .cmdLatch b ∧ exec (.cmdLatch b) s = .next { s with cmd := b, acc := b, ps := .sawCmd } ∧
    stepDone (.cmdLatch b) = false

/-- R76, `VAL.LATCH`: in `SawCmd` every byte is stored as the value and added to the accumulator modulo 256; after it the
accumulator is the sum of command and value, when it held the command before, as it does in `SawCmd` by
`EveryStepKeepsTheInvariant`. -/
def Obligations.ValLatchStoresTheValue : Prop :=
  ∀ (s : State) (b : Byte), s.ps = .sawCmd →
    byteOperation s b = .valLatch b ∧
    (∃ t, exec (.valLatch b) s = .next t ∧ t = { s with val := b, acc := t.acc, ps := .awaitingChecksum } ∧
      t.acc.toNat = (s.acc.toNat + b.toNat) % 256 ∧ (AccInv s → t.acc = addMod256 t.cmd t.val)) ∧
    stepDone (.valLatch b) = false

/-- `CHK.PASS`: in `AwaitingChecksum` a byte equal to `acc` dispatches the latched command and value, returns the Decoder to
`Idle` and ends the attempt; `cmd`, `val`, `acc` keep their values. That the dispatch and the write of `ps` are one step is the
spec's decision D10. -/
def Obligations.ChkPassDispatchesTheFrame : Prop :=
  ∀ (s : State) (b : Byte), s.ps = .awaitingChecksum → b = s.acc →
    byteOperation s b = .chkPass b ∧
    exec (.chkPass b) s = .next { s with ps := .idle, dispatched := s.dispatched ++ [⟨s.cmd, s.val⟩] } ∧
    stepDone (.chkPass b) = true

/-- R78, `CHK.FAIL`: in `AwaitingChecksum` a byte different from `acc`, `HEADER_1` included, returns the Decoder to `Idle`,
dispatches nothing, ends the attempt, and leaves `cmd`, `val`, `acc`. -/
def Obligations.ChkFailDropsTheFrameSilently : Prop :=
  ∀ (s : State) (b : Byte), s.ps = .awaitingChecksum → b ≠ s.acc →
    byteOperation s b = .chkFail b ∧ exec (.chkFail b) s = .next { s with ps := .idle } ∧ stepDone (.chkFail b) = true

/-- R79: a byte is used in the one role its state gives it. A byte that fails a comparison is not taken as a header, a byte
accepted unconditionally is not looked at as a header, and the only way into `SawHeader1` is `IDLE.H1`. -/
def Obligations.NoByteIsReinterpreted : Prop :=
  ∀ (s : State) (b : Byte),
    (s.ps = .sawHeader1 → b ≠ 0xFE → (decByte s b).ps = .idle) ∧
    (s.ps = .awaitingChecksum → (decByte s b).ps = .idle) ∧
    (s.ps = .sawHeader2 → (decByte s b).ps = .sawCmd) ∧
    (s.ps = .sawCmd → (decByte s b).ps = .awaitingChecksum) ∧
    ((decByte s b).ps = .sawHeader1 ↔ byteOperation s b = .idleH1)

/-- The step function of the Decoder is total: on every state and byte the key decodes to a well-formed operation whose `exec`
answers the state `DecByte` gives, and its `done` is that of the state before. -/
def Obligations.DecByteIsTheSelectedOperation : Prop :=
  ∀ (s : State) (b : Byte), ∃ i, decode (byteStepKey s b) = .instr i ∧ i.wf = true ∧
    exec i s = .next (decByte s b) ∧ (stepDone i = true ↔ s.ps = .awaitingChecksum)

/-- From every state at most four bytes, whatever they are, bring the Decoder to `Idle`. -/
def Obligations.FourBytesBringTheDecoderToIdle : Prop :=
  ∀ (s : State) (B : List Byte), B.length = 4 → ∃ k ≤ 4, (consume (B.take k) s).ps = .idle

/-- What the eight byte-steps and the dispatch leave: the Encoder, the RX and TX streams, the invocation bit and the
environment; each of `cmd`, `val`, `acc`, the dispatch stream and `ps` but for the operations that write it. -/
def Obligations.DecoderStepFrame : Prop :=
  ∀ (i : Instr) (s t : State), decoderStep i = true → exec i s = .next t →
    SameEncoder s t ∧ t.rx = s.rx ∧ t.decActive = s.decActive ∧ t.env = s.env ∧
    ((∀ b, i ≠ .cmdLatch b) → t.cmd = s.cmd) ∧ ((∀ b, i ≠ .valLatch b) → t.val = s.val) ∧
    ((∀ b, i ≠ .cmdLatch b) → (∀ b, i ≠ .valLatch b) → t.acc = s.acc) ∧
    ((∀ b, i ≠ .chkPass b) → i ≠ .decDispatch → t.dispatched = s.dispatched) ∧
    (i = .decDispatch → t.ps = s.ps)

/-! ### Invocations and the dispatch -/

/-- `DEC.DISPATCH` appends the packet of the registers and changes nothing else; a byte-step appends to the dispatch stream
exactly when it is `CHK.PASS`, and then that packet. Whatever consumer the Decoder is bound to (R160), it is called exactly in
the steps that append a packet, and what it then asks for is what the environment does next, before all else (the model's
choice, log entry 13); every other step is the same for every consumer. -/
def Obligations.DispatchHandsOverTheLatchedPacket : Prop :=
  (∀ s : State, exec .decDispatch s = .next { s with dispatched := s.dispatched ++ [⟨s.cmd, s.val⟩] }) ∧
  (∀ (s : State) (b : Byte), (decByte s b).dispatched = s.dispatched ++
    (if s.ps = .awaitingChecksum ∧ b = s.acc then [⟨s.cmd, s.val⟩] else [])) ∧
  (∀ (k : Consumer) (s t : State), step s = .next t →
    (t.dispatched = s.dispatched → stepWith k s = .next t) ∧
    (∀ p, t.dispatched = s.dispatched ++ [p] →
      stepWith k s = .next (setEnv ((k.sends (s.dispatched ++ [p])).map (sendRequest (atPorts s)) ++ t.env) t)))

/-- R91: an invocation consumes a prefix of the RX stream byte-step by byte-step, no byte of it after a checksum comparison, and
stops either because the source is empty, with the state as the last byte-step left it, or because the last byte was compared;
on an empty source it changes nothing. -/
def Obligations.InvocationEndsInExactlyTwoWays : Prop :=
  ∀ s : State, s.decActive = false →
    (∃ consumed rest, s.rx = consumed ++ rest ∧
      exec .decFeed s = .next (consume consumed (setRx rest s)) ∧
      OneAttempt s consumed ∧ (rest = [] ∨ EndsCompared s consumed)) ∧
    (s.rx = [] → exec .decFeed s = .next s)

/-- `FEED n`: the same with a source that reports at most `n` bytes available (the spec leaves the number open, D23; log
entry 7). -/
def Obligations.LimitedFeedConsumesAtMostItsLimit : Prop :=
  ∀ (s : State) (n : Nat) (more : List Stimulus), s.decActive = false → s.env = .feed (some n) :: more →
    ∃ consumed rest, s.rx = consumed ++ rest ∧
      step s = .next (consume consumed (setEnv more (setRx rest s))) ∧ consumed.length ≤ n ∧
      OneAttempt s consumed ∧ (consumed.length = n ∨ rest = [] ∨ EndsCompared s consumed)

/-- One invocation makes at most one dispatch, with `Idle` after it, and an invocation that leaves bytes on the RX stream ends
in `Idle`. -/
def Obligations.AtMostOneDispatchPerInvocation : Prop :=
  ∀ s : State, s.decActive = false → ∃ t, exec .decFeed s = .next t ∧
    (t.dispatched = s.dispatched ∨ ∃ p, t.dispatched = s.dispatched ++ [p] ∧ t.ps = .idle) ∧
    (t.rx ≠ [] → t.ps = .idle)

/-- What `DEC.FEED` leaves: the Encoder, the TX stream, the invocation bit and the environment; it takes only from the head of
RX and adds only at the tail of the dispatch stream. -/
def Obligations.FeedFrame : Prop :=
  ∀ s t : State, exec .decFeed s = .next t →
    SameEncoder s t ∧ t.decActive = s.decActive ∧ t.env = s.env ∧ t.rx <:+ s.rx ∧ s.dispatched <+: t.dispatched

/-- R100: five bytes of a frame met in `Idle`, split in any way over any number of invocations, give the one dispatch that one
invocation gives. -/
def Obligations.SplitFeedsDispatchTheFrameOnce : Prop :=
  ∀ (s : State) (c v : Byte) (rest : List Byte) (ns : List Nat),
    s.decActive = false → s.ps = .idle → s.rx = frameBytes c v ++ rest → ns.sum = 5 →
    s.env = ns.map (fun n => .feed (some n)) →
    runSteps ns.length s = .next { s with
      cmd := c, val := v, acc := checksum c v, rx := rest, dispatched := s.dispatched ++ [⟨c, v⟩], env := [] }

/-- The stream-function law: over any script of `RX`, `FEED`, `FEED n` and `SEND`, the Decoder's registers and dispatches are
the fold of the byte-step over the bytes consumed, and what was consumed and what is left are, in order, what was there and
what arrived. -/
def Obligations.InvocationBoundariesDoNotMatter : Prop :=
  ∀ s : State, s.decActive = false → (∀ e ∈ s.env, traffic e = true) →
    ∃ t consumed, runSteps s.env.length s = .next t ∧ consumed ++ t.rx = s.rx ++ arriving s.env ∧
      SameRegisters t (consume consumed s)

/-- A dispatch of `(c, v)` happens exactly when the last five bytes consumed are the frame of `(c, v)` and the Decoder was in
`Idle` at the first of them. -/
def Obligations.DispatchExactlyOnAFrameMetInIdle : Prop :=
  ∀ (s : State) (B : List Byte) (b c v : Byte), s.ps = .idle →
    ((consume (B ++ [b]) s).dispatched = (consume B s).dispatched ++ [⟨c, v⟩] ↔
      ∃ pre, B ++ [b] = pre ++ frameBytes c v ∧ (consume pre s).ps = .idle)

/-- The round trip: a send, carried to the Decoder in `Idle`, and one invocation dispatch exactly the pair sent, for every pair,
and leave the Decoder in `Idle` with both streams drained. -/
def Obligations.SendLoopFeedDispatchesTheSamePair : Prop :=
  ∀ (s : State) (c v : Byte), s.decActive = false → s.encBusy = false → s.ps = .idle → s.rx = [] → s.tx = [] →
    s.env = [.send c v, .loop, .feed none] →
    runSteps 3 s = .next { s with
      cmd := c, val := v, acc := checksum c v, dispatched := s.dispatched ++ [⟨c, v⟩], env := [] }

/-- R99: noise that leaves the Decoder in `Idle` without a dispatch of its own does not keep the frame after it from being
decoded; noise with no `HEADER_1` byte is such noise; the single noise byte `FF` is not, and loses the frame `FF FE 01 2A 2B`. -/
def Obligations.NoiseThatLeavesIdleDoesNotHideAFrame : Prop :=
  (∀ (s : State) (noise rest : List Byte) (c v : Byte), s.decActive = false → s.ps = .idle →
    (0xFF : Byte) ∉ noise → s.rx = noise ++ frameBytes c v ++ rest →
    exec .decFeed s = .next { s with
      cmd := c, val := v, acc := checksum c v, rx := rest, dispatched := s.dispatched ++ [⟨c, v⟩] }) ∧
  (∀ (s : State) (noise : List Byte) (c v : Byte), (consume noise s).ps = .idle →
    (consume noise s).dispatched = s.dispatched →
    (consume (noise ++ frameBytes c v) s).dispatched = s.dispatched ++ [⟨c, v⟩]) ∧
  (∀ s : State, s.ps = .idle → consume [0xFF, 0xFF, 0xFE, 0x01, 0x2A, 0x2B] s = s)

/-- A single-bit flip in the command, the value or the checksum of a frame met in `Idle` ends in `Idle` with no dispatch; in
either header byte it gives no dispatch within the five bytes. -/
def Obligations.SingleBitFlipIsNeverDispatched : Prop :=
  ∀ (s : State) (c v : Byte) (i : Nat), s.ps = .idle → i < 8 →
    let flip : Byte := 1#8 <<< i
    let k := checksum c v
    (∀ B ∈ [[0xFF, 0xFE, c ^^^ flip, v, k], [0xFF, 0xFE, c, v ^^^ flip, k], [0xFF, 0xFE, c, v, k ^^^ flip]],
      (consume B s).dispatched = s.dispatched ∧ (consume B s).ps = .idle) ∧
    (∀ B ∈ [[0xFF ^^^ flip, 0xFE, c, v, k], [0xFF, 0xFE ^^^ flip, c, v, k]],
      (consume B s).dispatched = s.dispatched)

/-- R102: two frames back to back, met in `Idle`, give two dispatches in order over two invocations, the first of which leaves
the second frame on the RX stream. -/
def Obligations.BackToBackFramesNeedTwoInvocations : Prop :=
  ∀ (s : State) (c v c' v' : Byte) (rest : List Byte), s.decActive = false → s.ps = .idle →
    s.rx = frameBytes c v ++ (frameBytes c' v' ++ rest) →
    exec .decFeed s = .next { s with
      cmd := c, val := v, acc := checksum c v, rx := frameBytes c' v' ++ rest,
      dispatched := s.dispatched ++ [⟨c, v⟩] } ∧
    (∀ t, exec .decFeed s = .next t → exec .decFeed t = .next { s with
      cmd := c', val := v', acc := checksum c' v', rx := rest,
      dispatched := s.dispatched ++ [⟨c, v⟩, ⟨c', v'⟩] })

/-- Stray `FF` bytes before a frame met in `Idle`: an even number does no harm, an odd number loses the frame (vectors V24 and
V31). -/
def Obligations.OddRunOfHeaderBytesLosesTheFrame : Prop :=
  ∀ (s : State) (n : Nat) (c v : Byte), s.ps = .idle →
    (consume (List.replicate n 0xFF ++ frameBytes c v) s).dispatched =
      s.dispatched ++ (if n % 2 = 0 then [⟨c, v⟩] else [])

/-! ### The Encoder -/

/-- R106 to R110: each emission appends its one byte to the TX stream and changes nothing else; the header bytes do not depend
on the operands, command and value are written as given, the checksum wraps; and a send is the five emissions in this order
with nothing between them. -/
def Obligations.EmissionsAppendTheirByte : Prop :=
  ∀ (s : State) (c v : Byte),
    exec .encB0 s = .next { s with tx := s.tx ++ [0xFF] } ∧
    exec .encB1 s = .next { s with tx := s.tx ++ [0xFE] } ∧
    exec (.encB2 c) s = .next { s with tx := s.tx ++ [c] } ∧
    exec (.encB3 v) s = .next { s with tx := s.tx ++ [v] } ∧
    (∃ k : Byte, k.toNat = (c.toNat + v.toNat) % 256 ∧ exec (.encB4 c v) s = .next { s with tx := s.tx ++ [k] }) ∧
    (s.encBusy = false → exec (.encSend c v) s =
      andThen (exec .encB0 s) fun s => andThen (exec .encB1 s) fun s => andThen (exec (.encB2 c) s) fun s =>
        andThen (exec (.encB3 v) s) fun s => exec (.encB4 c v) s)

/-- `ENC.SEND` with no port-level send in progress, as always at the transaction level: the five bytes of the frame, in order,
and nothing else. -/
def Obligations.SendAppendsTheFrame : Prop :=
  ∀ (s : State) (c v : Byte), s.encBusy = false →
    exec (.encSend c v) s = .next { s with tx := s.tx ++ [0xFF, 0xFE, c, v, c + v] }

/-- Requests at the transaction level that meet the port level busy: a nested `feed` has no step (the spec's D16 and U2; log
entry 6). A transaction-level send during a port-level send is ignored and not remembered: that is the model's choice, log
entry 10, since U9 and D12 speak of the ports only. -/
def Obligations.RequestsWhileBusyDoNothing : Prop :=
  ∀ (s : State) (c v : Byte),
    (s.decActive = true → exec .decFeed s = .refused .nestedFeed) ∧
    (s.encBusy = true → exec (.encSend c v) s = .next s)

/-- What the Encoder's operations leave: everything but the TX stream, to which they only append. -/
def Obligations.EncoderFrame : Prop :=
  ∀ (i : Instr) (s t : State), encoderOperation i = true → exec i s = .next t →
    t = { s with tx := t.tx } ∧ s.tx <+: t.tx

/-- R114: what a send appends depends on its two operands only, and a send and a byte-step do not see each other: done in either
order they give the same state. -/
def Obligations.SendAndByteStepAreIndependent : Prop :=
  (∀ c v : Byte, ∃ w : List Byte, ∀ s : State, s.encBusy = false →
    exec (.encSend c v) s = .next { s with tx := s.tx ++ w }) ∧
  (∀ (s : State) (b c v : Byte), s.encBusy = false → ∃ t, exec (.encSend c v) s = .next t ∧
    exec (.encSend c v) (decByte s b) = .next (decByte t b))

/-! ### The port binding: every rule of it is the spec's own decision (D3 to D26) -/

/-- The Decoder's part of a cycle without reset: it accepts `feed` only when no invocation is in progress and then consumes
nothing; in an invocation it ends on an empty source, and otherwise consumes one byte by one byte-step and ends if that was a
comparison. -/
def Obligations.DecoderCycleFollowsThePortRules : Prop :=
  ∀ (p : Ports) (s : State), p.rst = false → ∃ t, cycle p s = .next t ∧
    (s.decActive = false → SameRegisters t s ∧ t.rx = s.rx ++ p.arrivals ∧ t.decActive = p.feed) ∧
    (s.decActive = true → s.rx ++ p.arrivals = [] → SameRegisters t s ∧ t.rx = [] ∧ t.decActive = false) ∧
    (∀ b rest, s.decActive = true → s.rx ++ p.arrivals = b :: rest →
      SameRegisters t (decByte s b) ∧ t.rx = rest ∧ (t.decActive = true ↔ s.ps ≠ .awaitingChecksum))

/-- The Encoder's part of a cycle without reset: it latches the operands when it accepts `tx_start` and writes nothing in that
cycle; in a send it writes the byte at `enc_idx` and moves on or ends, and looks at no request. -/
def Obligations.EncoderCycleFollowsThePortRules : Prop :=
  ∀ (p : Ports) (s : State), p.rst = false → ∃ t, cycle p s = .next t ∧
    (s.encBusy = false → p.txStart = false → SameEncoder t s) ∧
    (s.encBusy = false → p.txStart = true →
      t.encBusy = true ∧ t.encIdx = 0 ∧ t.encCmd = p.txCmd ∧ t.encVal = p.txValue ∧ t.tx = s.tx) ∧
    (s.encBusy = true → t.encCmd = s.encCmd ∧ t.encVal = s.encVal ∧
      (∃ b, (frameBytes s.encCmd s.encVal)[s.encIdx.val]? = some b ∧ t.tx = s.tx ++ [b]) ∧
      (s.encIdx = 4 → t.encBusy = false ∧ t.encIdx = 0) ∧
      (s.encIdx ≠ 4 → t.encBusy = true ∧ t.encIdx.val = s.encIdx.val + 1))

/-- A reset cycle: every register takes its reset value whatever the inputs say, nothing is popped, dispatched or written, and
the streams keep what they hold. -/
def Obligations.ResetCycleOverridesEverything : Prop :=
  ∀ (p : Ports) (s : State), p.rst = true →
    cycle p s = .next { State.reset with
      rx := s.rx ++ p.arrivals, tx := s.tx, dispatched := s.dispatched, env := s.env } ∧
    (outputs p s).rxPop = false ∧ (outputs p s).pktValid = false ∧ (outputs p s).txValid = false

/-- The output ports tell what happens to the streams: in every cycle one byte leaves RX exactly when `rx_pop` is 1, the packet
on `pkt_cmd`, `pkt_value` is dispatched exactly when `pkt_valid` is 1, `tx_data` is written exactly when `tx_valid` is 1, and
an empty source is never read. -/
def Obligations.OutputPortsTellTheStreams : Prop :=
  ∀ (p : Ports) (s : State), ∃ t, cycle p s = .next t ∧
    t.rx = (s.rx ++ p.arrivals).drop (if (outputs p s).rxPop then 1 else 0) ∧
    t.dispatched = s.dispatched ++
      (if (outputs p s).pktValid then [⟨(outputs p s).pktCmd, (outputs p s).pktValue⟩] else []) ∧
    t.tx = s.tx ++ (if (outputs p s).txValid then [(outputs p s).txData] else []) ∧
    ((outputs p s).rxPop = true → s.rx ++ p.arrivals ≠ [] ∧ s.decActive = true ∧ p.rst = false) ∧
    (outputs p s).feedBusy = s.decActive ∧ (outputs p s).txBusy = s.encBusy

/-- A request that falls in a cycle in which its agent is busy is not looked at. -/
def Obligations.RequestsToABusyAgentAreIgnored : Prop :=
  (∀ (p : Ports) (s : State) (f : Bool), s.decActive = true → cycle { p with feed := f } s = cycle p s) ∧
  (∀ (p : Ports) (s : State) (f : Bool) (c v : Byte), s.encBusy = true →
    cycle { p with txStart := f, txCmd := c, txValue := v } s = cycle p s)

/-- The Decoder's part of a cycle depends on nothing of the Encoder or its ports, and the Encoder's part on nothing of the
Decoder, its ports or the source. -/
def Obligations.DecoderAndEncoderDoNotInterfere : Prop :=
  ∀ (p q : Ports) (s t s' t' : State), p.rst = q.rst → cycle p s = .next s' → cycle q t = .next t' →
    (p.feed = q.feed → p.arrivals = q.arrivals → SameDecoder s t → SameDecoder s' t') ∧
    (p.txStart = q.txStart → p.txCmd = q.txCmd → p.txValue = q.txValue → SameEncoder s t → SameEncoder s' t')

/-- The port binding implements `DEC.FEED`: after a cycle that accepts `feed`, quiet cycles with the invocation in progress
follow until the clocked machine is in the very state that `DEC.FEED` gives, with the invocation over. -/
def Obligations.ClockedInvocationIsFeed : Prop :=
  ∀ s : State, s.decActive = false → s.encBusy = false →
    ∃ k, runCycles ({ Ports.quiet with feed := true } :: List.replicate k Ports.quiet) s = exec .decFeed s ∧
      (∀ j < k, ∃ u, runCycles ({ Ports.quiet with feed := true } :: List.replicate j Ports.quiet) s = .next u ∧
        u.decActive = true)

/-- Over any run of cycles without reset, whatever the Encoder does and whenever bytes arrive, the Decoder's registers and
dispatches are the fold of the byte-step over the bytes popped. -/
def Obligations.ClockedConsumptionIsAFold : Prop :=
  ∀ (inputs : List Ports) (s : State), (∀ p ∈ inputs, p.rst = false) →
    ∃ t consumed, runCycles inputs s = .next t ∧
      consumed ++ t.rx = s.rx ++ (inputs.map Ports.arrivals).flatten ∧ SameRegisters t (consume consumed s)

/-- The port binding implements `ENC.SEND`: a `tx_start` accepted in one cycle puts the frame of its operands, and nothing else,
on the TX stream in the next five, whatever else the inputs say, and the Encoder is free again. -/
def Obligations.ClockedSendIsSend : Prop :=
  ∀ (p0 p1 p2 p3 p4 p5 : Ports) (s : State), (∀ p ∈ [p0, p1, p2, p3, p4, p5], p.rst = false) →
    s.encBusy = false → p0.txStart = true →
    ∃ t, runCycles [p0, p1, p2, p3, p4, p5] s = .next t ∧ t.tx = s.tx ++ frameBytes p0.txCmd p0.txValue ∧
      t.encBusy = false ∧ t.encIdx = 0

/-- The timing figures of the Decoder: a frame that is all there when `feed` is accepted in cycle t is consumed in cycles t+1 to
t+5, `feed_busy` is 1 in exactly those, `pkt_valid` is 1 in t+5 and in none before. -/
def Obligations.FrameIsConsumedInFiveCycles : Prop :=
  ∀ (p0 p1 p2 p3 p4 p5 : Ports) (s : State) (c v : Byte) (rest : List Byte),
    (∀ p ∈ [p0, p1, p2, p3, p4, p5], p.rst = false ∧ p.arrivals = []) → s.decActive = false → s.ps = .idle →
    p0.feed = true → s.rx = frameBytes c v ++ rest →
    ∃ s1 s2 s3 s4 s5 t, cycle p0 s = .next s1 ∧ cycle p1 s1 = .next s2 ∧ cycle p2 s2 = .next s3 ∧
      cycle p3 s3 = .next s4 ∧ cycle p4 s4 = .next s5 ∧ cycle p5 s5 = .next t ∧
      (∀ u ∈ [s1, s2, s3, s4, s5], u.decActive = true) ∧ t.decActive = false ∧ t.rx = rest ∧ t.ps = .idle ∧
      t.dispatched = s.dispatched ++ [⟨c, v⟩] ∧
      (outputs p0 s).pktValid = false ∧ (outputs p1 s1).pktValid = false ∧ (outputs p2 s2).pktValid = false ∧
      (outputs p3 s3).pktValid = false ∧ (outputs p4 s4).pktValid = false ∧ (outputs p5 s5).pktValid = true

/-- An endless source that never completes a frame attempt keeps one invocation running: a run of `00` bytes, one a cycle. -/
def Obligations.EndlessNoiseKeepsTheInvocationRunning : Prop :=
  ∀ (n : Nat) (s : State), s.decActive = true → s.ps = .idle → s.rx = [] →
    ∃ t, runCycles (List.replicate n { Ports.quiet with arrivals := [0x00] }) s = .next t ∧
      t.decActive = true ∧ t.ps = .idle ∧ t.rx = [] ∧ t.dispatched = s.dispatched

/-! ### Reset -/

/-- `RESET` gives every register the value of R22 (the zeros are the spec's decision D4), touches no stream, and the first
byte-step after it is `IDLE.H1` or `IDLE.SKIP`. -/
def Obligations.ResetSetsEveryRegister : Prop :=
  ∀ s : State, ∃ t, exec .reset s = .next t ∧
    t = { ps := .idle, cmd := 0x00, val := 0x00, acc := 0x00, decActive := false, encBusy := false, encIdx := 0,
          encCmd := 0x00, encVal := 0x00, rx := s.rx, tx := s.tx, dispatched := s.dispatched, env := s.env } ∧
    (∀ b, byteOperation t b = .idleH1 ∨ byteOperation t b = .idleSkip b)

/-- The invariant holds right after reset. -/
def Obligations.InvariantHoldsAtReset : Prop := MachineInv State.reset

/-! ### Rules of the whole machine -/

/-- Every step keeps the invariant: in `SawCmd` the accumulator is the command, in `AwaitingChecksum` it is
`(cmd + val) mod 256`, and `enc_idx` is 0 while no send is in progress. -/
def Obligations.EveryStepKeepsTheInvariant : Prop :=
  ∀ s t : State, MachineInv s → step s = .next t → MachineInv t

/-- Data registers that no rule reads before it writes them have no effect: two states that differ in nothing else step to two
states that differ in nothing else, with the same `ps`, streams and dispatches, for ever. -/
def Obligations.StaleRegistersHaveNoEffect : Prop :=
  ∀ s t s' : State, SameUpToStale s t → step s = .next s' → ∃ t', step t = .next t' ∧ SameUpToStale s' t'

/-- The dispatch stream only grows. The TX stream only grows but for `LOOP`, in which the environment takes it, and a reset with
a flush of it (log entry 20). The RX stream, once not empty, becomes empty in a step only by the byte-steps on exactly the bytes
it held, or by a reset with a flush of it. -/
def Obligations.StreamsAreAppendOnly : Prop :=
  ∀ s t : State, step s = .next t →
    s.dispatched <+: t.dispatched ∧
    (s.tx <+: t.tx ∨ (s.env.head? = some .loop ∧ t.tx = [] ∧ t.rx = s.rx ++ s.tx) ∨
      ((∃ dropRx, s.env.head? = some (.resetFlush dropRx true)) ∧ t.tx = [])) ∧
    (s.rx ≠ [] → t.rx = [] →
      SameRegisters t (consume s.rx s) ∨
      (∃ dropTx, s.env.head? = some (.resetFlush true dropTx)))

/-- The block never faults; a step has no next state only where the environment calls `feed` at the transaction level while an
invocation is in progress (log entry 6). -/
def Obligations.StepStopsOnlyOnANestedFeed : Prop :=
  ∀ s : State, (∃ t, step s = .next t) ∨
    (step s = .refused .nestedFeed ∧ s.decActive = true ∧ ∃ l, s.env.head? = some (.feed l))

/-- Every operation answers a next state when no port-level invocation is in progress, and every one but `DEC.FEED` always; no
operation touches what the environment does next. -/
def Obligations.EveryOperationCompletes : Prop :=
  ∀ (i : Instr) (s : State), (i = .decFeed → s.decActive = false) → ∃ t, exec i s = .next t ∧ t.env = s.env

/-- Each register and each output stream has the writers its rule names, and no other operation changes it. That of the
operations only `RESET` changes `dec_active` and the Encoder's registers is the model's split of `exec` and the cycle, log
entry 15: R124 to R126, R132 and R133 give their other writes to the cycles of `DEC.FEED`, `ENC.SEND` and `ENC.B0` to
`ENC.B4`, which Machine/Cycle.lean makes around `exec`. -/
def Obligations.EveryRegisterHasItsWriters : Prop :=
  ∀ (i : Instr) (s t : State), exec i s = .next t →
    (t.ps ≠ s.ps → (decoderStep i = true ∧ i ≠ .decDispatch) ∨ i = .decFeed ∨ i = .reset) ∧
    (t.cmd ≠ s.cmd → i = .cmdLatch t.cmd ∨ i = .decFeed ∨ i = .reset) ∧
    (t.val ≠ s.val → i = .valLatch t.val ∨ i = .decFeed ∨ i = .reset) ∧
    (t.acc ≠ s.acc → (∃ b, i = .cmdLatch b) ∨ (∃ b, i = .valLatch b) ∨ i = .decFeed ∨ i = .reset) ∧
    (t.dispatched ≠ s.dispatched → (∃ b, i = .chkPass b) ∨ i = .decDispatch ∨ i = .decFeed) ∧
    (t.tx ≠ s.tx → encoderOperation i = true) ∧
    (t.rx ≠ s.rx → i = .decFeed) ∧
    (t.decActive ≠ s.decActive → i = .reset) ∧
    (¬ SameEncoder { s with tx := t.tx } t → i = .reset)

/-- The channels of a system share nothing: a step of one leaves every other as it is, and its effect on its own channel does
not depend on the others. -/
def Obligations.ChannelsAreIsolated : Prop :=
  ∀ (k : Nat) (sys sys' : System) (s : State), System.stepChannel k sys = some sys' → sys.channels[k]? = some s →
    (∀ j, j ≠ k → sys'.channels[j]? = sys.channels[j]?) ∧
    (∃ t, step s = .next t ∧ sys'.channels[k]? = some t)
end

