-- ==== Sys2Proof/Laws/State.lean ====
section
/-! SUPPORT. One lemma per field per update of State: what the update writes and what it leaves. -/

namespace Sys2Proof.Machine

/-! ### setRx -/

@[simp] theorem setRx_ps (bytes : List Byte) (s : State) : (setRx bytes s).ps = s.ps := rfl
@[simp] theorem setRx_cmd (bytes : List Byte) (s : State) : (setRx bytes s).cmd = s.cmd := rfl
@[simp] theorem setRx_val (bytes : List Byte) (s : State) : (setRx bytes s).val = s.val := rfl
@[simp] theorem setRx_acc (bytes : List Byte) (s : State) : (setRx bytes s).acc = s.acc := rfl
@[simp] theorem setRx_decActive (bytes : List Byte) (s : State) : (setRx bytes s).decActive = s.decActive := rfl
@[simp] theorem setRx_encBusy (bytes : List Byte) (s : State) : (setRx bytes s).encBusy = s.encBusy := rfl
@[simp] theorem setRx_encIdx (bytes : List Byte) (s : State) : (setRx bytes s).encIdx = s.encIdx := rfl
@[simp] theorem setRx_encCmd (bytes : List Byte) (s : State) : (setRx bytes s).encCmd = s.encCmd := rfl
@[simp] theorem setRx_encVal (bytes : List Byte) (s : State) : (setRx bytes s).encVal = s.encVal := rfl
@[simp] theorem setRx_rx (bytes : List Byte) (s : State) : (setRx bytes s).rx = bytes := rfl
@[simp] theorem setRx_tx (bytes : List Byte) (s : State) : (setRx bytes s).tx = s.tx := rfl
@[simp] theorem setRx_dispatched (bytes : List Byte) (s : State) : (setRx bytes s).dispatched = s.dispatched := rfl
@[simp] theorem setRx_env (bytes : List Byte) (s : State) : (setRx bytes s).env = s.env := rfl

/-! ### setEnv -/

@[simp] theorem setEnv_ps (stimuli : List Stimulus) (s : State) : (setEnv stimuli s).ps = s.ps := rfl
@[simp] theorem setEnv_cmd (stimuli : List Stimulus) (s : State) : (setEnv stimuli s).cmd = s.cmd := rfl
@[simp] theorem setEnv_val (stimuli : List Stimulus) (s : State) : (setEnv stimuli s).val = s.val := rfl
@[simp] theorem setEnv_acc (stimuli : List Stimulus) (s : State) : (setEnv stimuli s).acc = s.acc := rfl
@[simp] theorem setEnv_decActive (stimuli : List Stimulus) (s : State) : (setEnv stimuli s).decActive = s.decActive := rfl
@[simp] theorem setEnv_encBusy (stimuli : List Stimulus) (s : State) : (setEnv stimuli s).encBusy = s.encBusy := rfl
@[simp] theorem setEnv_encIdx (stimuli : List Stimulus) (s : State) : (setEnv stimuli s).encIdx = s.encIdx := rfl
@[simp] theorem setEnv_encCmd (stimuli : List Stimulus) (s : State) : (setEnv stimuli s).encCmd = s.encCmd := rfl
@[simp] theorem setEnv_encVal (stimuli : List Stimulus) (s : State) : (setEnv stimuli s).encVal = s.encVal := rfl
@[simp] theorem setEnv_rx (stimuli : List Stimulus) (s : State) : (setEnv stimuli s).rx = s.rx := rfl
@[simp] theorem setEnv_tx (stimuli : List Stimulus) (s : State) : (setEnv stimuli s).tx = s.tx := rfl
@[simp] theorem setEnv_dispatched (stimuli : List Stimulus) (s : State) : (setEnv stimuli s).dispatched = s.dispatched := rfl
@[simp] theorem setEnv_env (stimuli : List Stimulus) (s : State) : (setEnv stimuli s).env = stimuli := rfl

/-! ### rxAppend -/

@[simp] theorem rxAppend_ps (bytes : List Byte) (s : State) : (rxAppend bytes s).ps = s.ps := rfl
@[simp] theorem rxAppend_cmd (bytes : List Byte) (s : State) : (rxAppend bytes s).cmd = s.cmd := rfl
@[simp] theorem rxAppend_val (bytes : List Byte) (s : State) : (rxAppend bytes s).val = s.val := rfl
@[simp] theorem rxAppend_acc (bytes : List Byte) (s : State) : (rxAppend bytes s).acc = s.acc := rfl
@[simp] theorem rxAppend_decActive (bytes : List Byte) (s : State) : (rxAppend bytes s).decActive = s.decActive := rfl
@[simp] theorem rxAppend_encBusy (bytes : List Byte) (s : State) : (rxAppend bytes s).encBusy = s.encBusy := rfl
@[simp] theorem rxAppend_encIdx (bytes : List Byte) (s : State) : (rxAppend bytes s).encIdx = s.encIdx := rfl
@[simp] theorem rxAppend_encCmd (bytes : List Byte) (s : State) : (rxAppend bytes s).encCmd = s.encCmd := rfl
@[simp] theorem rxAppend_encVal (bytes : List Byte) (s : State) : (rxAppend bytes s).encVal = s.encVal := rfl
@[simp] theorem rxAppend_rx (bytes : List Byte) (s : State) : (rxAppend bytes s).rx = s.rx ++ bytes := rfl
@[simp] theorem rxAppend_tx (bytes : List Byte) (s : State) : (rxAppend bytes s).tx = s.tx := rfl
@[simp] theorem rxAppend_dispatched (bytes : List Byte) (s : State) : (rxAppend bytes s).dispatched = s.dispatched := rfl
@[simp] theorem rxAppend_env (bytes : List Byte) (s : State) : (rxAppend bytes s).env = s.env := rfl

/-! ### txWrite -/

@[simp] theorem txWrite_ps (b : Byte) (s : State) : (txWrite b s).ps = s.ps := rfl
@[simp] theorem txWrite_cmd (b : Byte) (s : State) : (txWrite b s).cmd = s.cmd := rfl
@[simp] theorem txWrite_val (b : Byte) (s : State) : (txWrite b s).val = s.val := rfl
@[simp] theorem txWrite_acc (b : Byte) (s : State) : (txWrite b s).acc = s.acc := rfl
@[simp] theorem txWrite_decActive (b : Byte) (s : State) : (txWrite b s).decActive = s.decActive := rfl
@[simp] theorem txWrite_encBusy (b : Byte) (s : State) : (txWrite b s).encBusy = s.encBusy := rfl
@[simp] theorem txWrite_encIdx (b : Byte) (s : State) : (txWrite b s).encIdx = s.encIdx := rfl
@[simp] theorem txWrite_encCmd (b : Byte) (s : State) : (txWrite b s).encCmd = s.encCmd := rfl
@[simp] theorem txWrite_encVal (b : Byte) (s : State) : (txWrite b s).encVal = s.encVal := rfl
@[simp] theorem txWrite_rx (b : Byte) (s : State) : (txWrite b s).rx = s.rx := rfl
@[simp] theorem txWrite_tx (b : Byte) (s : State) : (txWrite b s).tx = s.tx ++ [b] := rfl
@[simp] theorem txWrite_dispatched (b : Byte) (s : State) : (txWrite b s).dispatched = s.dispatched := rfl
@[simp] theorem txWrite_env (b : Byte) (s : State) : (txWrite b s).env = s.env := rfl

/-! ### loopBack -/

@[simp] theorem loopBack_ps (s : State) : (loopBack s).ps = s.ps := rfl
@[simp] theorem loopBack_cmd (s : State) : (loopBack s).cmd = s.cmd := rfl
@[simp] theorem loopBack_val (s : State) : (loopBack s).val = s.val := rfl
@[simp] theorem loopBack_acc (s : State) : (loopBack s).acc = s.acc := rfl
@[simp] theorem loopBack_decActive (s : State) : (loopBack s).decActive = s.decActive := rfl
@[simp] theorem loopBack_encBusy (s : State) : (loopBack s).encBusy = s.encBusy := rfl
@[simp] theorem loopBack_encIdx (s : State) : (loopBack s).encIdx = s.encIdx := rfl
@[simp] theorem loopBack_encCmd (s : State) : (loopBack s).encCmd = s.encCmd := rfl
@[simp] theorem loopBack_encVal (s : State) : (loopBack s).encVal = s.encVal := rfl
@[simp] theorem loopBack_rx (s : State) : (loopBack s).rx = s.rx ++ s.tx := rfl
@[simp] theorem loopBack_tx (s : State) : (loopBack s).tx = [] := rfl
@[simp] theorem loopBack_dispatched (s : State) : (loopBack s).dispatched = s.dispatched := rfl
@[simp] theorem loopBack_env (s : State) : (loopBack s).env = s.env := rfl

/-! ### flush -/

@[simp] theorem flush_ps (dropRx dropTx : Bool) (s : State) : (flush dropRx dropTx s).ps = s.ps := rfl
@[simp] theorem flush_cmd (dropRx dropTx : Bool) (s : State) : (flush dropRx dropTx s).cmd = s.cmd := rfl
@[simp] theorem flush_val (dropRx dropTx : Bool) (s : State) : (flush dropRx dropTx s).val = s.val := rfl
@[simp] theorem flush_acc (dropRx dropTx : Bool) (s : State) : (flush dropRx dropTx s).acc = s.acc := rfl
@[simp] theorem flush_decActive (dropRx dropTx : Bool) (s : State) : (flush dropRx dropTx s).decActive = s.decActive := rfl
@[simp] theorem flush_encBusy (dropRx dropTx : Bool) (s : State) : (flush dropRx dropTx s).encBusy = s.encBusy := rfl
@[simp] theorem flush_encIdx (dropRx dropTx : Bool) (s : State) : (flush dropRx dropTx s).encIdx = s.encIdx := rfl
@[simp] theorem flush_encCmd (dropRx dropTx : Bool) (s : State) : (flush dropRx dropTx s).encCmd = s.encCmd := rfl
@[simp] theorem flush_encVal (dropRx dropTx : Bool) (s : State) : (flush dropRx dropTx s).encVal = s.encVal := rfl
@[simp] theorem flush_rx (dropRx dropTx : Bool) (s : State) : (flush dropRx dropTx s).rx = if dropRx then [] else s.rx := rfl
@[simp] theorem flush_tx (dropRx dropTx : Bool) (s : State) : (flush dropRx dropTx s).tx = if dropTx then [] else s.tx := rfl
@[simp] theorem flush_dispatched (dropRx dropTx : Bool) (s : State) : (flush dropRx dropTx s).dispatched = s.dispatched := rfl
@[simp] theorem flush_env (dropRx dropTx : Bool) (s : State) : (flush dropRx dropTx s).env = s.env := rfl

/-! ### dispatch -/

@[simp] theorem dispatch_ps (p : Packet) (s : State) : (dispatch p s).ps = s.ps := rfl
@[simp] theorem dispatch_cmd (p : Packet) (s : State) : (dispatch p s).cmd = s.cmd := rfl
@[simp] theorem dispatch_val (p : Packet) (s : State) : (dispatch p s).val = s.val := rfl
@[simp] theorem dispatch_acc (p : Packet) (s : State) : (dispatch p s).acc = s.acc := rfl
@[simp] theorem dispatch_decActive (p : Packet) (s : State) : (dispatch p s).decActive = s.decActive := rfl
@[simp] theorem dispatch_encBusy (p : Packet) (s : State) : (dispatch p s).encBusy = s.encBusy := rfl
@[simp] theorem dispatch_encIdx (p : Packet) (s : State) : (dispatch p s).encIdx = s.encIdx := rfl
@[simp] theorem dispatch_encCmd (p : Packet) (s : State) : (dispatch p s).encCmd = s.encCmd := rfl
@[simp] theorem dispatch_encVal (p : Packet) (s : State) : (dispatch p s).encVal = s.encVal := rfl
@[simp] theorem dispatch_rx (p : Packet) (s : State) : (dispatch p s).rx = s.rx := rfl
@[simp] theorem dispatch_tx (p : Packet) (s : State) : (dispatch p s).tx = s.tx := rfl
@[simp] theorem dispatch_dispatched (p : Packet) (s : State) : (dispatch p s).dispatched = s.dispatched ++ [p] := rfl
@[simp] theorem dispatch_env (p : Packet) (s : State) : (dispatch p s).env = s.env := rfl

/-! ### setPs -/

@[simp] theorem setPs_ps (p : Ps) (s : State) : (setPs p s).ps = p := rfl
@[simp] theorem setPs_cmd (p : Ps) (s : State) : (setPs p s).cmd = s.cmd := rfl
@[simp] theorem setPs_val (p : Ps) (s : State) : (setPs p s).val = s.val := rfl
@[simp] theorem setPs_acc (p : Ps) (s : State) : (setPs p s).acc = s.acc := rfl
@[simp] theorem setPs_decActive (p : Ps) (s : State) : (setPs p s).decActive = s.decActive := rfl
@[simp] theorem setPs_encBusy (p : Ps) (s : State) : (setPs p s).encBusy = s.encBusy := rfl
@[simp] theorem setPs_encIdx (p : Ps) (s : State) : (setPs p s).encIdx = s.encIdx := rfl
@[simp] theorem setPs_encCmd (p : Ps) (s : State) : (setPs p s).encCmd = s.encCmd := rfl
@[simp] theorem setPs_encVal (p : Ps) (s : State) : (setPs p s).encVal = s.encVal := rfl
@[simp] theorem setPs_rx (p : Ps) (s : State) : (setPs p s).rx = s.rx := rfl
@[simp] theorem setPs_tx (p : Ps) (s : State) : (setPs p s).tx = s.tx := rfl
@[simp] theorem setPs_dispatched (p : Ps) (s : State) : (setPs p s).dispatched = s.dispatched := rfl
@[simp] theorem setPs_env (p : Ps) (s : State) : (setPs p s).env = s.env := rfl

/-! ### latchCommand -/

@[simp] theorem latchCommand_ps (b : Byte) (s : State) : (latchCommand b s).ps = .sawCmd := rfl
@[simp] theorem latchCommand_cmd (b : Byte) (s : State) : (latchCommand b s).cmd = b := rfl
@[simp] theorem latchCommand_val (b : Byte) (s : State) : (latchCommand b s).val = s.val := rfl
@[simp] theorem latchCommand_acc (b : Byte) (s : State) : (latchCommand b s).acc = b := rfl
@[simp] theorem latchCommand_decActive (b : Byte) (s : State) : (latchCommand b s).decActive = s.decActive := rfl
@[simp] theorem latchCommand_encBusy (b : Byte) (s : State) : (latchCommand b s).encBusy = s.encBusy := rfl
@[simp] theorem latchCommand_encIdx (b : Byte) (s : State) : (latchCommand b s).encIdx = s.encIdx := rfl
@[simp] theorem latchCommand_encCmd (b : Byte) (s : State) : (latchCommand b s).encCmd = s.encCmd := rfl
@[simp] theorem latchCommand_encVal (b : Byte) (s : State) : (latchCommand b s).encVal = s.encVal := rfl
@[simp] theorem latchCommand_rx (b : Byte) (s : State) : (latchCommand b s).rx = s.rx := rfl
@[simp] theorem latchCommand_tx (b : Byte) (s : State) : (latchCommand b s).tx = s.tx := rfl
@[simp] theorem latchCommand_dispatched (b : Byte) (s : State) : (latchCommand b s).dispatched = s.dispatched := rfl
@[simp] theorem latchCommand_env (b : Byte) (s : State) : (latchCommand b s).env = s.env := rfl

/-! ### latchValue -/

@[simp] theorem latchValue_ps (b : Byte) (s : State) : (latchValue b s).ps = .awaitingChecksum := rfl
@[simp] theorem latchValue_cmd (b : Byte) (s : State) : (latchValue b s).cmd = s.cmd := rfl
@[simp] theorem latchValue_val (b : Byte) (s : State) : (latchValue b s).val = b := rfl
@[simp] theorem latchValue_acc (b : Byte) (s : State) : (latchValue b s).acc = addMod256 s.acc b := rfl
@[simp] theorem latchValue_decActive (b : Byte) (s : State) : (latchValue b s).decActive = s.decActive := rfl
@[simp] theorem latchValue_encBusy (b : Byte) (s : State) : (latchValue b s).encBusy = s.encBusy := rfl
@[simp] theorem latchValue_encIdx (b : Byte) (s : State) : (latchValue b s).encIdx = s.encIdx := rfl
@[simp] theorem latchValue_encCmd (b : Byte) (s : State) : (latchValue b s).encCmd = s.encCmd := rfl
@[simp] theorem latchValue_encVal (b : Byte) (s : State) : (latchValue b s).encVal = s.encVal := rfl
@[simp] theorem latchValue_rx (b : Byte) (s : State) : (latchValue b s).rx = s.rx := rfl
@[simp] theorem latchValue_tx (b : Byte) (s : State) : (latchValue b s).tx = s.tx := rfl
@[simp] theorem latchValue_dispatched (b : Byte) (s : State) : (latchValue b s).dispatched = s.dispatched := rfl
@[simp] theorem latchValue_env (b : Byte) (s : State) : (latchValue b s).env = s.env := rfl

/-! ### acceptFrame -/

@[simp] theorem acceptFrame_ps (s : State) : (acceptFrame s).ps = .idle := rfl
@[simp] theorem acceptFrame_cmd (s : State) : (acceptFrame s).cmd = s.cmd := rfl
@[simp] theorem acceptFrame_val (s : State) : (acceptFrame s).val = s.val := rfl
@[simp] theorem acceptFrame_acc (s : State) : (acceptFrame s).acc = s.acc := rfl
@[simp] theorem acceptFrame_decActive (s : State) : (acceptFrame s).decActive = s.decActive := rfl
@[simp] theorem acceptFrame_encBusy (s : State) : (acceptFrame s).encBusy = s.encBusy := rfl
@[simp] theorem acceptFrame_encIdx (s : State) : (acceptFrame s).encIdx = s.encIdx := rfl
@[simp] theorem acceptFrame_encCmd (s : State) : (acceptFrame s).encCmd = s.encCmd := rfl
@[simp] theorem acceptFrame_encVal (s : State) : (acceptFrame s).encVal = s.encVal := rfl
@[simp] theorem acceptFrame_rx (s : State) : (acceptFrame s).rx = s.rx := rfl
@[simp] theorem acceptFrame_tx (s : State) : (acceptFrame s).tx = s.tx := rfl
@[simp] theorem acceptFrame_dispatched (s : State) : (acceptFrame s).dispatched = s.dispatched ++ [⟨s.cmd, s.val⟩] := rfl
@[simp] theorem acceptFrame_env (s : State) : (acceptFrame s).env = s.env := rfl

/-! ### startInvocation -/

@[simp] theorem startInvocation_ps (s : State) : (startInvocation s).ps = s.ps := rfl
@[simp] theorem startInvocation_cmd (s : State) : (startInvocation s).cmd = s.cmd := rfl
@[simp] theorem startInvocation_val (s : State) : (startInvocation s).val = s.val := rfl
@[simp] theorem startInvocation_acc (s : State) : (startInvocation s).acc = s.acc := rfl
@[simp] theorem startInvocation_decActive (s : State) : (startInvocation s).decActive = true := rfl
@[simp] theorem startInvocation_encBusy (s : State) : (startInvocation s).encBusy = s.encBusy := rfl
@[simp] theorem startInvocation_encIdx (s : State) : (startInvocation s).encIdx = s.encIdx := rfl
@[simp] theorem startInvocation_encCmd (s : State) : (startInvocation s).encCmd = s.encCmd := rfl
@[simp] theorem startInvocation_encVal (s : State) : (startInvocation s).encVal = s.encVal := rfl
@[simp] theorem startInvocation_rx (s : State) : (startInvocation s).rx = s.rx := rfl
@[simp] theorem startInvocation_tx (s : State) : (startInvocation s).tx = s.tx := rfl
@[simp] theorem startInvocation_dispatched (s : State) : (startInvocation s).dispatched = s.dispatched := rfl
@[simp] theorem startInvocation_env (s : State) : (startInvocation s).env = s.env := rfl

/-! ### endInvocation -/

@[simp] theorem endInvocation_ps (s : State) : (endInvocation s).ps = s.ps := rfl
@[simp] theorem endInvocation_cmd (s : State) : (endInvocation s).cmd = s.cmd := rfl
@[simp] theorem endInvocation_val (s : State) : (endInvocation s).val = s.val := rfl
@[simp] theorem endInvocation_acc (s : State) : (endInvocation s).acc = s.acc := rfl
@[simp] theorem endInvocation_decActive (s : State) : (endInvocation s).decActive = false := rfl
@[simp] theorem endInvocation_encBusy (s : State) : (endInvocation s).encBusy = s.encBusy := rfl
@[simp] theorem endInvocation_encIdx (s : State) : (endInvocation s).encIdx = s.encIdx := rfl
@[simp] theorem endInvocation_encCmd (s : State) : (endInvocation s).encCmd = s.encCmd := rfl
@[simp] theorem endInvocation_encVal (s : State) : (endInvocation s).encVal = s.encVal := rfl
@[simp] theorem endInvocation_rx (s : State) : (endInvocation s).rx = s.rx := rfl
@[simp] theorem endInvocation_tx (s : State) : (endInvocation s).tx = s.tx := rfl
@[simp] theorem endInvocation_dispatched (s : State) : (endInvocation s).dispatched = s.dispatched := rfl
@[simp] theorem endInvocation_env (s : State) : (endInvocation s).env = s.env := rfl

/-! ### startSend -/

@[simp] theorem startSend_ps (c v : Byte) (s : State) : (startSend c v s).ps = s.ps := rfl
@[simp] theorem startSend_cmd (c v : Byte) (s : State) : (startSend c v s).cmd = s.cmd := rfl
@[simp] theorem startSend_val (c v : Byte) (s : State) : (startSend c v s).val = s.val := rfl
@[simp] theorem startSend_acc (c v : Byte) (s : State) : (startSend c v s).acc = s.acc := rfl
@[simp] theorem startSend_decActive (c v : Byte) (s : State) : (startSend c v s).decActive = s.decActive := rfl
@[simp] theorem startSend_encBusy (c v : Byte) (s : State) : (startSend c v s).encBusy = true := rfl
@[simp] theorem startSend_encIdx (c v : Byte) (s : State) : (startSend c v s).encIdx = 0 := rfl
@[simp] theorem startSend_encCmd (c v : Byte) (s : State) : (startSend c v s).encCmd = c := rfl
@[simp] theorem startSend_encVal (c v : Byte) (s : State) : (startSend c v s).encVal = v := rfl
@[simp] theorem startSend_rx (c v : Byte) (s : State) : (startSend c v s).rx = s.rx := rfl
@[simp] theorem startSend_tx (c v : Byte) (s : State) : (startSend c v s).tx = s.tx := rfl
@[simp] theorem startSend_dispatched (c v : Byte) (s : State) : (startSend c v s).dispatched = s.dispatched := rfl
@[simp] theorem startSend_env (c v : Byte) (s : State) : (startSend c v s).env = s.env := rfl

/-! ### advanceSend -/

@[simp] theorem advanceSend_ps (s : State) : (advanceSend s).ps = s.ps := by unfold advanceSend; split <;> rfl
@[simp] theorem advanceSend_cmd (s : State) : (advanceSend s).cmd = s.cmd := by unfold advanceSend; split <;> rfl
@[simp] theorem advanceSend_val (s : State) : (advanceSend s).val = s.val := by unfold advanceSend; split <;> rfl
@[simp] theorem advanceSend_acc (s : State) : (advanceSend s).acc = s.acc := by unfold advanceSend; split <;> rfl
@[simp] theorem advanceSend_decActive (s : State) : (advanceSend s).decActive = s.decActive := by unfold advanceSend; split <;> rfl
@[simp] theorem advanceSend_encCmd (s : State) : (advanceSend s).encCmd = s.encCmd := by unfold advanceSend; split <;> rfl
@[simp] theorem advanceSend_encVal (s : State) : (advanceSend s).encVal = s.encVal := by unfold advanceSend; split <;> rfl
@[simp] theorem advanceSend_rx (s : State) : (advanceSend s).rx = s.rx := by unfold advanceSend; split <;> rfl
@[simp] theorem advanceSend_tx (s : State) : (advanceSend s).tx = s.tx := by unfold advanceSend; split <;> rfl
@[simp] theorem advanceSend_dispatched (s : State) : (advanceSend s).dispatched = s.dispatched := by unfold advanceSend; split <;> rfl
@[simp] theorem advanceSend_env (s : State) : (advanceSend s).env = s.env := by unfold advanceSend; split <;> rfl
theorem advanceSend_last (s : State) (h : s.encIdx = 4) :
    advanceSend s = { s with encBusy := false, encIdx := 0 } := by simp [advanceSend, h]
theorem advanceSend_more (s : State) (h : s.encIdx ≠ 4) :
    advanceSend s = { s with encIdx := s.encIdx + 1 } := by simp [advanceSend, h]

/-! ### resetRegisters -/

@[simp] theorem resetRegisters_ps (s : State) : (resetRegisters s).ps = .idle := rfl
@[simp] theorem resetRegisters_cmd (s : State) : (resetRegisters s).cmd = Config.resetByte := rfl
@[simp] theorem resetRegisters_val (s : State) : (resetRegisters s).val = Config.resetByte := rfl
@[simp] theorem resetRegisters_acc (s : State) : (resetRegisters s).acc = Config.resetByte := rfl
@[simp] theorem resetRegisters_decActive (s : State) : (resetRegisters s).decActive = false := rfl
@[simp] theorem resetRegisters_encBusy (s : State) : (resetRegisters s).encBusy = false := rfl
@[simp] theorem resetRegisters_encIdx (s : State) : (resetRegisters s).encIdx = 0 := rfl
@[simp] theorem resetRegisters_encCmd (s : State) : (resetRegisters s).encCmd = Config.resetByte := rfl
@[simp] theorem resetRegisters_encVal (s : State) : (resetRegisters s).encVal = Config.resetByte := rfl
@[simp] theorem resetRegisters_rx (s : State) : (resetRegisters s).rx = s.rx := rfl
@[simp] theorem resetRegisters_tx (s : State) : (resetRegisters s).tx = s.tx := rfl
@[simp] theorem resetRegisters_dispatched (s : State) : (resetRegisters s).dispatched = s.dispatched := rfl
@[simp] theorem resetRegisters_env (s : State) : (resetRegisters s).env = s.env := rfl

end Sys2Proof.Machine
end

