-- ==== Sys2Proof/Laws/Ops.lean ====
section
/-! SUPPORT. For each shared operation what it can do, said once. -/

namespace Sys2Proof.Machine

/-! ### Sequencing -/

@[simp] theorem andThen_next (s : State) (f : State → Result) : andThen (.next s) f = f s := rfl

@[simp] theorem andThen_refused (r : Refusal) (f : State → Result) : andThen (.refused r) f = .refused r := rfl

/-- A sequence answers a next state only through a next state of its first part. -/
theorem andThen_eq_next {o : Result} {f : State → Result} {t : State} (h : andThen o f = .next t) :
    ∃ s, o = .next s ∧ f s = .next t := by
  cases o with
  | next s => exact ⟨s, rfl, h⟩
  | fault r => exact nomatch r
  | refused r => simp at h

/-! ### Streams -/

@[simp] theorem rxRead_nil (s : State) (h : s.rx = []) : rxRead s = none := by simp [rxRead, h]

@[simp] theorem rxRead_cons (s : State) (b : Byte) (rest : List Byte) (h : s.rx = b :: rest) :
    rxRead s = some (b, setRx rest s) := by simp [rxRead, h]

/-- A byte is read exactly when one is available (R34, R35). -/
theorem rxRead_isSome (s : State) : (rxRead s).isSome = rxAvail s := by
  cases h : s.rx <;> simp [rxRead, rxAvail, h]

@[simp] theorem setRx_self (s : State) : setRx s.rx s = s := rfl

@[simp] theorem setRx_setRx (s : State) (a b : List Byte) : setRx a (setRx b s) = setRx a s := rfl

@[simp] theorem setEnv_self (s : State) : setEnv s.env s = s := rfl

@[simp] theorem setEnv_setEnv (s : State) (a b : List Stimulus) : setEnv a (setEnv b s) = setEnv a s := rfl

theorem setRx_setEnv (s : State) (a : List Byte) (b : List Stimulus) :
    setRx a (setEnv b s) = setEnv b (setRx a s) := rfl

theorem rxAppend_eq (s : State) (bytes : List Byte) : rxAppend bytes s = setRx (s.rx ++ bytes) s := rfl

@[simp] theorem rxAppend_nil (s : State) : rxAppend [] s = s := by simp [rxAppend]

@[simp] theorem present_quiet (s : State) : present Ports.quiet s = s := by simp [present, Ports.quiet]

/-! ### Byte-steps -/

@[simp] theorem setPs_self (s : State) : setPs s.ps s = s := rfl

theorem setPs_of_eq (s : State) (p : Ps) (h : s.ps = p) : setPs p s = s := by subst h; rfl

theorem decByte_idle_header (s : State) (h : s.ps = .idle) :
    decByte s Config.header1 = setPs .sawHeader1 s := by simp [decByte, h]

theorem decByte_idle_other (s : State) (b : Byte) (h : s.ps = .idle) (hb : b ≠ Config.header1) : decByte s b = s := by
  simp [decByte, h, hb, setPs_of_eq s .idle h]

theorem decByte_sawHeader1_header (s : State) (h : s.ps = .sawHeader1) :
    decByte s Config.header2 = setPs .sawHeader2 s := by simp [decByte, h]

theorem decByte_sawHeader1_other (s : State) (b : Byte) (h : s.ps = .sawHeader1) (hb : b ≠ Config.header2) :
    decByte s b = setPs .idle s := by simp [decByte, h, hb]

theorem decByte_sawHeader2 (s : State) (b : Byte) (h : s.ps = .sawHeader2) : decByte s b = latchCommand b s := by
  simp [decByte, h]

theorem decByte_sawCmd (s : State) (b : Byte) (h : s.ps = .sawCmd) : decByte s b = latchValue b s := by
  simp [decByte, h]

theorem decByte_pass (s : State) (h : s.ps = .awaitingChecksum) : decByte s s.acc = acceptFrame s := by
  simp [decByte, h, matchesAcc]

theorem decByte_fail (s : State) (b : Byte) (h : s.ps = .awaitingChecksum) (hb : b ≠ s.acc) :
    decByte s b = setPs .idle s := by simp [decByte, h, matchesAcc, hb]

/-- Everything a byte-step can do: it moves `ps` only, or latches a command, or latches a value, or accepts a frame. -/
theorem decByte_cases (s : State) (b : Byte) :
    (∃ p, p ≠ .sawCmd ∧ p ≠ .awaitingChecksum ∧ decByte s b = setPs p s) ∨
    (s.ps = .sawHeader2 ∧ decByte s b = latchCommand b s) ∨
    (s.ps = .sawCmd ∧ decByte s b = latchValue b s) ∨
    (s.ps = .awaitingChecksum ∧ b = s.acc ∧ decByte s b = acceptFrame s) := by
  cases h : s.ps with
  | idle =>
    by_cases hb : b = Config.header1
    · exact .inl ⟨.sawHeader1, by decide, by decide, by subst hb; exact decByte_idle_header s h⟩
    · exact .inl ⟨.idle, by decide, by decide, by
        rw [decByte_idle_other s b h hb, setPs_of_eq s .idle h]⟩
  | sawHeader1 =>
    by_cases hb : b = Config.header2
    · exact .inl ⟨.sawHeader2, by decide, by decide, by subst hb; exact decByte_sawHeader1_header s h⟩
    · exact .inl ⟨.idle, by decide, by decide, decByte_sawHeader1_other s b h hb⟩
  | sawHeader2 => exact .inr (.inl ⟨rfl, decByte_sawHeader2 s b h⟩)
  | sawCmd => exact .inr (.inr (.inl ⟨rfl, decByte_sawCmd s b h⟩))
  | awaitingChecksum =>
    by_cases hb : b = s.acc
    · exact .inr (.inr (.inr ⟨rfl, hb, by subst hb; exact decByte_pass s h⟩))
    · exact .inl ⟨.idle, by decide, by decide, decByte_fail s b h hb⟩

@[simp] theorem decByte_rx (s : State) (b : Byte) : (decByte s b).rx = s.rx := by
  obtain ⟨p, -, -, h⟩ | ⟨-, h⟩ | ⟨-, h⟩ | ⟨-, -, h⟩ := decByte_cases s b <;> rw [h] <;> rfl

@[simp] theorem decByte_tx (s : State) (b : Byte) : (decByte s b).tx = s.tx := by
  obtain ⟨p, -, -, h⟩ | ⟨-, h⟩ | ⟨-, h⟩ | ⟨-, -, h⟩ := decByte_cases s b <;> rw [h] <;> rfl

@[simp] theorem decByte_env (s : State) (b : Byte) : (decByte s b).env = s.env := by
  obtain ⟨p, -, -, h⟩ | ⟨-, h⟩ | ⟨-, h⟩ | ⟨-, -, h⟩ := decByte_cases s b <;> rw [h] <;> rfl

@[simp] theorem decByte_decActive (s : State) (b : Byte) : (decByte s b).decActive = s.decActive := by
  obtain ⟨p, -, -, h⟩ | ⟨-, h⟩ | ⟨-, h⟩ | ⟨-, -, h⟩ := decByte_cases s b <;> rw [h] <;> rfl

@[simp] theorem decByte_encBusy (s : State) (b : Byte) : (decByte s b).encBusy = s.encBusy := by
  obtain ⟨p, -, -, h⟩ | ⟨-, h⟩ | ⟨-, h⟩ | ⟨-, -, h⟩ := decByte_cases s b <;> rw [h] <;> rfl

@[simp] theorem decByte_encIdx (s : State) (b : Byte) : (decByte s b).encIdx = s.encIdx := by
  obtain ⟨p, -, -, h⟩ | ⟨-, h⟩ | ⟨-, h⟩ | ⟨-, -, h⟩ := decByte_cases s b <;> rw [h] <;> rfl

@[simp] theorem decByte_encCmd (s : State) (b : Byte) : (decByte s b).encCmd = s.encCmd := by
  obtain ⟨p, -, -, h⟩ | ⟨-, h⟩ | ⟨-, h⟩ | ⟨-, -, h⟩ := decByte_cases s b <;> rw [h] <;> rfl

@[simp] theorem decByte_encVal (s : State) (b : Byte) : (decByte s b).encVal = s.encVal := by
  obtain ⟨p, -, -, h⟩ | ⟨-, h⟩ | ⟨-, h⟩ | ⟨-, -, h⟩ := decByte_cases s b <;> rw [h] <;> rfl

/-- What a byte-step does depends on the streams in nothing but what it hands over (R70): the RX stream may be replaced
before it or after it. -/
theorem decByte_setRx (s : State) (b : Byte) (r : List Byte) : decByte (setRx r s) b = setRx r (decByte s b) := by
  unfold decByte matchesAcc
  rw [setRx_ps, setRx_acc]
  cases s.ps <;> dsimp only <;> (try split) <;> rfl

/-- What a byte-step does does not depend on what the environment does next. -/
theorem decByte_setEnv (s : State) (b : Byte) (l : List Stimulus) : decByte (setEnv l s) b = setEnv l (decByte s b) := by
  unfold decByte matchesAcc
  rw [setEnv_ps, setEnv_acc]
  cases s.ps <;> dsimp only <;> (try split) <;> rfl

/-- What a byte-step does does not depend on the TX stream, and the other way round (R114). -/
theorem decByte_txWrite (s : State) (b w : Byte) : decByte (txWrite w s) b = txWrite w (decByte s b) := by
  unfold decByte matchesAcc
  rw [txWrite_ps, txWrite_acc]
  cases s.ps <;> dsimp only <;> (try split) <;> rfl

/-! ### Invocations -/

@[simp] theorem feedRun_zero (s : State) : feedRun 0 s = s := rfl

theorem feedRun_nil (n : Nat) (s : State) (h : s.rx = []) : feedRun n s = s := by
  cases n <;> simp [feedRun, rxRead, h]

theorem feedRun_done (n : Nat) (s : State) (b : Byte) (rest : List Byte) (h : s.rx = b :: rest)
    (hp : s.ps = .awaitingChecksum) : feedRun (n + 1) s = decByte (setRx rest s) b := by
  simp [feedRun, rxRead, h, comparesChecksum, hp]

theorem feedRun_more (n : Nat) (s : State) (b : Byte) (rest : List Byte) (h : s.rx = b :: rest)
    (hp : s.ps ≠ .awaitingChecksum) : feedRun (n + 1) s = feedRun n (decByte (setRx rest s) b) := by
  simp [feedRun, rxRead, h, comparesChecksum, hp]

/-- An invocation answers a next state exactly when none is in progress, and then it is the run of the loop. -/
theorem invoke_eq_next {n : Nat} {s t : State} :
    invoke n s = .next t ↔ s.decActive = false ∧ feedRun n s = t := by
  unfold invoke
  cases s.decActive <;> simp

/-! ### Sends -/

theorem writeFrame_eq (c v : Byte) (s : State) : writeFrame c v s = .next { s with tx := s.tx ++ frameBytes c v } := by
  simp [writeFrame, execEncB0, execEncB1, execEncB2, execEncB3, execEncB4, txWrite, frameBytes]

/-! ### Cycles -/

/-- A byte popped in a cycle is handled by the operation the decode table selects, which is what `DecByte` does. -/
theorem exec_byteOperation (s : State) (b : Byte) :
    exec (byteOperation s b) s = .next (decByte s b) ∧ stepDone (byteOperation s b) = comparesChecksum s := by
  unfold byteOperation selectByteStep decByte comparesChecksum
  cases s.ps <;> dsimp only <;> (try split) <;> exact ⟨rfl, rfl⟩

/-- An emission writes the frame byte at `enc_idx` (R133, R134). -/
theorem exec_emissionOperation (s : State) :
    exec (emissionOperation s) s = .next (txWrite (frameByteAt s.encIdx s.encCmd s.encVal) s) := by
  unfold emissionOperation
  generalize s.encIdx = idx
  fin_cases idx <;> rfl

/-- Everything the Decoder's part of a cycle can do. -/
theorem decoderCycle_cases (p : Ports) (s : State) :
    (s.decActive = false ∧ p.feed = true ∧ decoderCycle p s = .next (startInvocation s)) ∨
    (s.decActive = false ∧ p.feed = false ∧ decoderCycle p s = .next s) ∨
    (s.decActive = true ∧ s.rx = [] ∧ decoderCycle p s = .next (endInvocation s)) ∨
    (∃ b rest, s.decActive = true ∧ s.rx = b :: rest ∧
      decoderCycle p s = .next (if comparesChecksum s then endInvocation (decByte (setRx rest s) b)
        else decByte (setRx rest s) b)) := by
  by_cases ha : s.decActive = true
  · cases hr : s.rx with
    | nil => simp [decoderCycle, ha, rxRead, hr]
    | cons b rest =>
      obtain ⟨he, hd⟩ := exec_byteOperation (setRx rest s) b
      refine .inr (.inr (.inr ⟨b, rest, ha, rfl, ?_⟩))
      rw [decoderCycle, if_pos ha, rxRead_cons s b rest hr]
      dsimp only
      rw [he, andThen_next, afterByteStep, hd]
      rfl
  · cases hf : p.feed <;> simp [decoderCycle, ha, hf]

/-- Everything the Encoder's part of a cycle can do. -/
theorem encoderCycle_cases (p : Ports) (s : State) :
    (s.encBusy = false ∧ p.txStart = true ∧ encoderCycle p s = .next (startSend p.txCmd p.txValue s)) ∨
    (s.encBusy = false ∧ p.txStart = false ∧ encoderCycle p s = .next s) ∨
    (s.encBusy = true ∧
      encoderCycle p s = .next (advanceSend (txWrite (frameByteAt s.encIdx s.encCmd s.encVal) s))) := by
  unfold encoderCycle
  cases hb : s.encBusy with
  | false => cases hf : p.txStart <;> simp
  | true => simp [exec_emissionOperation]

/-- A clock cycle always has a next state, a reset cycle that of `RESET`. -/
theorem cycle_reset (p : Ports) (s : State) (h : p.rst = true) :
    cycle p s = .next (resetRegisters (present p s)) := by simp [cycle, h, exec, execReset]

theorem cycle_run (p : Ports) (s : State) (h : p.rst = false) :
    cycle p s = andThen (decoderCycle p (present p s)) (encoderCycle p) := by simp [cycle, h]

/-! ### Steps -/

/-- The consumer that asks for nothing leaves the state as it is. -/
@[simp] theorem respond_silent (s t : State) : Consumer.silent.respond s t = t := by
  simp [Consumer.respond, Consumer.silent]

/-- With the consumer that asks for nothing a step is what the script says. -/
theorem step_eq_runNext (s : State) : step s = runNext s := by
  rw [step, stepWith]
  cases runNext s <;> simp [andThen]

@[simp] theorem step_quiet (s : State) (h : s.env = []) : step s = cycle Ports.quiet s := by
  simp [step_eq_runNext, runNext, h]

@[simp] theorem step_stimulus (s : State) (e : Stimulus) (rest : List Stimulus) (h : s.env = e :: rest) :
    step s = runStimulus e (setEnv rest s) := by
  simp [step_eq_runNext, runNext, h]

end Sys2Proof.Machine
end

