-- ==== Sys2Proof/Laws/Cycle.lean ====
section
/-! SUPPORT. The two parts of a clock cycle without reset as plain functions of the state, and what each part leaves. -/

namespace Sys2Proof.Machine

open Sys2Proof.Safety

/-- What the Decoder's part of a cycle leaves. -/
def decoderAfter (p : Ports) (s : State) : State :=
  if s.decActive then
    match s.rx with
    | [] => endInvocation s
    | b :: rest =>
      if comparesChecksum s then endInvocation (decByte (setRx rest s) b) else decByte (setRx rest s) b
  else if p.feed then startInvocation s
  else s

/-- What the Encoder's part of a cycle leaves. -/
def encoderAfter (p : Ports) (s : State) : State :=
  if s.encBusy then advanceSend (txWrite (frameByteAt s.encIdx s.encCmd s.encVal) s)
  else if p.txStart then startSend p.txCmd p.txValue s
  else s

theorem decoderCycle_next (p : Ports) (s : State) : decoderCycle p s = .next (decoderAfter p s) := by
  obtain ⟨h1, h2, h⟩ | ⟨h1, h2, h⟩ | ⟨h1, h2, h⟩ | ⟨b, rest, h1, h2, h⟩ := decoderCycle_cases p s <;>
    simp [h, decoderAfter, h1, h2]

theorem encoderCycle_next (p : Ports) (s : State) : encoderCycle p s = .next (encoderAfter p s) := by
  obtain ⟨h1, h2, h⟩ | ⟨h1, h2, h⟩ | ⟨h1, h⟩ := encoderCycle_cases p s
  · simp [h, encoderAfter, h1, h2]
  · simp [h, encoderAfter, h1, h2]
  · simp [h, encoderAfter, h1]

/-- A cycle without reset is the Decoder's part, then the Encoder's. -/
theorem cycle_next (p : Ports) (s : State) (h : p.rst = false) :
    cycle p s = .next (encoderAfter p (decoderAfter p (present p s))) := by
  rw [cycle_run p s h, decoderCycle_next, andThen_next, encoderCycle_next]

theorem decoderAfter_idle (p : Ports) (s : State) (h : s.decActive = false) (hf : p.feed = false) :
    decoderAfter p s = s := by simp [decoderAfter, h, hf]

theorem decoderAfter_start (p : Ports) (s : State) (h : s.decActive = false) (hf : p.feed = true) :
    decoderAfter p s = startInvocation s := by simp [decoderAfter, h, hf]

theorem decoderAfter_empty (p : Ports) (s : State) (h : s.decActive = true) (hx : s.rx = []) :
    decoderAfter p s = endInvocation s := by simp [decoderAfter, h, hx]

theorem decoderAfter_more (p : Ports) (s : State) (b : Byte) (rest : List Byte) (h : s.decActive = true)
    (hx : s.rx = b :: rest) (hp : s.ps ≠ .awaitingChecksum) :
    decoderAfter p s = decByte (setRx rest s) b := by simp [decoderAfter, h, hx, comparesChecksum, hp]

theorem decoderAfter_done (p : Ports) (s : State) (b : Byte) (rest : List Byte) (h : s.decActive = true)
    (hx : s.rx = b :: rest) (hp : s.ps = .awaitingChecksum) :
    decoderAfter p s = endInvocation (decByte (setRx rest s) b) := by
  simp [decoderAfter, h, hx, comparesChecksum, hp]

theorem encoderAfter_idle (p : Ports) (s : State) (h : s.encBusy = false) (ht : p.txStart = false) :
    encoderAfter p s = s := by simp [encoderAfter, h, ht]

theorem encoderAfter_start (p : Ports) (s : State) (h : s.encBusy = false) (ht : p.txStart = true) :
    encoderAfter p s = startSend p.txCmd p.txValue s := by simp [encoderAfter, h, ht]

theorem encoderAfter_busy (p : Ports) (s : State) (h : s.encBusy = true) :
    encoderAfter p s = advanceSend (txWrite (frameByteAt s.encIdx s.encCmd s.encVal) s) := by
  simp [encoderAfter, h]

/-- The Decoder's part of a cycle leaves the Encoder and the environment. -/
theorem decoderAfter_view (p : Ports) (s : State) :
    SameEncoder (decoderAfter p s) s ∧ (decoderAfter p s).env = s.env := by
  unfold decoderAfter
  split
  · split
    · simp [SameEncoder]
    · split <;> simp [SameEncoder]
  · split <;> simp [SameEncoder]

/-- The Encoder's part of a cycle leaves the Decoder and the environment. -/
theorem encoderAfter_view (p : Ports) (s : State) :
    SameDecoder (encoderAfter p s) s ∧ (encoderAfter p s).env = s.env := by
  unfold encoderAfter
  split
  · simp [SameDecoder]
  · split <;> simp [SameDecoder]

end Sys2Proof.Machine
end

