-- ==== Sys2Proof/Laws/Consumer.lean ====
section
/-! SUPPORT. A machine bound to any consumer makes no run that the machine with a script does not make: no operation looks at
what the environment does next, so what a consumer asks for may stand in the script from the start (log entry 13). -/

namespace Sys2Proof.Machine

open Sys2Proof.Safety

/-- What the environment does next, replaced in a next state. -/
def replaceEnv (l : List Stimulus) (o : Result) : Result := andThen o fun s => .next (setEnv l s)

@[simp] theorem replaceEnv_next (l : List Stimulus) (s : State) : replaceEnv l (.next s) = .next (setEnv l s) := rfl

theorem feedRun_setEnv (l : List Stimulus) (n : Nat) (s : State) :
    feedRun n (setEnv l s) = setEnv l (feedRun n s) := by
  induction n generalizing s with
  | zero => rfl
  | succ n ih =>
    cases hr : s.rx with
    | nil => rw [feedRun_nil _ s hr, feedRun_nil _ (setEnv l s) hr]
    | cons b rest =>
      by_cases hp : s.ps = .awaitingChecksum
      · rw [feedRun_done _ s b rest hr hp, feedRun_done _ (setEnv l s) b rest hr hp, setRx_setEnv, decByte_setEnv]
      · rw [feedRun_more _ s b rest hr hp, feedRun_more _ (setEnv l s) b rest hr hp, setRx_setEnv, decByte_setEnv, ih]

theorem invoke_setEnv (l : List Stimulus) (n : Nat) (s : State) :
    invoke n (setEnv l s) = replaceEnv l (invoke n s) := by
  rw [invoke, invoke, setEnv_decActive]
  split
  · rfl
  · rw [feedRun_setEnv, replaceEnv_next]

theorem decoderAfter_setEnv (p : Ports) (l : List Stimulus) (s : State) :
    decoderAfter p (setEnv l s) = setEnv l (decoderAfter p s) := by
  have hc : comparesChecksum (setEnv l s) = comparesChecksum s := rfl
  unfold decoderAfter
  rw [setEnv_decActive, setEnv_rx, hc]
  split
  · split
    · rfl
    · rw [setRx_setEnv, decByte_setEnv]
      split <;> rfl
  · split <;> rfl

theorem advanceSend_setEnv (l : List Stimulus) (s : State) : advanceSend (setEnv l s) = setEnv l (advanceSend s) := by
  by_cases h : s.encIdx = 4
  · rw [advanceSend_last s h, advanceSend_last (setEnv l s) h]; rfl
  · rw [advanceSend_more s h, advanceSend_more (setEnv l s) h]; rfl

theorem encoderAfter_setEnv (p : Ports) (l : List Stimulus) (s : State) :
    encoderAfter p (setEnv l s) = setEnv l (encoderAfter p s) := by
  unfold encoderAfter
  rw [setEnv_encBusy]
  split
  · exact advanceSend_setEnv l (txWrite (frameByteAt s.encIdx s.encCmd s.encVal) s)
  · split <;> rfl

theorem cycle_setEnv (p : Ports) (l : List Stimulus) (s : State) :
    cycle p (setEnv l s) = replaceEnv l (cycle p s) := by
  have hp : present p (setEnv l s) = setEnv l (present p s) := rfl
  cases h : p.rst with
  | true => rw [cycle_reset _ _ h, cycle_reset _ _ h]; rfl
  | false => rw [cycle_next _ _ h, cycle_next _ _ h, hp, decoderAfter_setEnv, encoderAfter_setEnv, replaceEnv_next]

/-- What a stimulus does does not depend on the stimuli after it. -/
theorem runStimulus_setEnv (e : Stimulus) (l : List Stimulus) (s : State) :
    runStimulus e (setEnv l s) = replaceEnv l (runStimulus e s) := by
  cases e with
  | reset | rx bytes | loop | resetFlush dropRx dropTx => rfl
  | feed limit => cases limit <;> exact invoke_setEnv l _ s
  | send c v =>
    simp only [runStimulus, exec, execEncSend]
    by_cases h : s.encBusy = true
    · rw [if_pos h, if_pos (c := (setEnv l s).encBusy = true) h]; rfl
    · rw [if_neg h, if_neg (c := (setEnv l s).encBusy = true) h, writeFrame_eq, writeFrame_eq]; rfl
  | cycle p => exact cycle_setEnv p l s

/-- Every step does what one stimulus does, whatever stands after it. -/
theorem step_stimulus_any (s t : State) (h : step s = .next t) :
    ∃ e, ∀ l, step (setEnv (e :: l) s) = .next (setEnv l t) := by
  cases he : s.env with
  | nil =>
    rw [step_quiet s he] at h
    exact ⟨.cycle Ports.quiet, fun l => by
      rw [step_stimulus _ _ l rfl, setEnv_setEnv, runStimulus_setEnv, runStimulus, h, replaceEnv_next]⟩
  | cons e rest =>
    rw [step_stimulus s e rest he, runStimulus_setEnv] at h
    obtain ⟨u, hu, ht⟩ := andThen_eq_next h
    cases ht
    exact ⟨e, fun l => by
      rw [step_stimulus _ _ l rfl, setEnv_setEnv, runStimulus_setEnv, hu, replaceEnv_next, setEnv_setEnv]⟩

/-- A consumer changes nothing but what the environment does next. -/
theorem respond_eq (k : Consumer) (s t : State) : ∃ l, k.respond s t = setEnv l t := by
  unfold Consumer.respond
  split
  · exact ⟨t.env, rfl⟩
  · exact ⟨_, rfl⟩

/-- A step of the machine with a consumer is a step of the machine, then the consumer's response. -/
theorem stepWith_eq_next {k : Consumer} {s t : State} (h : stepWith k s = .next t) :
    ∃ u, step s = .next u ∧ k.respond s u = t := by
  obtain ⟨u, hu, ht⟩ := andThen_eq_next h
  exact ⟨u, by rw [step_eq_runNext, hu], by simpa using ht⟩

/-- Every run with a consumer is a run of the machine under some script: same states, but for what the environment does next.
So a statement about every state, and with it about every script, speaks of every consumer. -/
theorem run_with_consumer_is_a_script (k : Consumer) (n : Nat) (s t : State) (h : runStepsWith k n s = .next t) :
    ∃ script, script.length = n ∧ runSteps n (setEnv script s) = .next (setEnv [] t) := by
  induction n generalizing s with
  | zero => cases h; exact ⟨[], rfl, rfl⟩
  | succ n ih =>
    obtain ⟨u, hu, ht⟩ := andThen_eq_next h
    obtain ⟨w, hw, rfl⟩ := stepWith_eq_next hu
    obtain ⟨l, hl⟩ := respond_eq k s w
    obtain ⟨script, hn, hs⟩ := ih _ ht
    obtain ⟨e, he⟩ := step_stimulus_any s w hw
    rw [hl, setEnv_setEnv] at hs
    exact ⟨e :: script, by rw [List.length_cons, hn], by rw [runSteps, he, andThen_next, hs]⟩

end Sys2Proof.Machine
end

