-- ==== Sys2Proof/Laws/Decode.lean ====
section
/-! SUPPORT. The small lemmas of the codes, the keys and the frame pattern. -/

namespace Sys2Proof

@[simp] theorem psOfCode_psCode (ps : Ps) : psOfCode (psCode ps) = some ps := by cases ps <;> rfl

/-- A code that stands for a value of `ps` is that value's code (R11). -/
theorem psCode_of_psOfCode {code : BitVec 3} {ps : Ps} (h : psOfCode code = some ps) : psCode ps = code := by
  revert code ps; decide

/-- Bits 10:8 of a byte-step key are the code of `ps` (R67). -/
@[simp] theorem byteStepBits_ps (ps : Ps) (b : Byte) : (byteStepBits ps b).extractLsb' 8 3 = psCode ps := by
  unfold byteStepBits
  ext i hi
  interval_cases i <;> simp

/-- Bits 7:0 of a byte-step key are the byte (R67). -/
@[simp] theorem byteStepBits_byte (ps : Ps) (b : Byte) : (byteStepBits ps b).extractLsb' 0 8 = b := by
  unfold byteStepBits
  ext i hi
  interval_cases i <;> simp

/-- The bytes of the 40-bit pattern are the frame's, offset 0 leftmost (R50). -/
theorem frameBitsByte_frameBits (c v k : Byte) :
    frameBitsByte (frameBits c v k) 0 = Config.header1 ∧ frameBitsByte (frameBits c v k) 1 = Config.header2 ∧
    frameBitsByte (frameBits c v k) 2 = c ∧ frameBitsByte (frameBits c v k) 3 = v ∧
    frameBitsByte (frameBits c v k) 4 = k := by
  unfold frameBitsByte frameBits
  refine ⟨?_, ?_, ?_, ?_, ?_⟩ <;> ext i hi <;> interval_cases i <;> simp

@[simp] theorem checksum_toNat (c v : Byte) : (checksum c v).toNat = (c.toNat + v.toNat) % 256 := by
  simp [checksum, addMod256, BitVec.toNat_add]

theorem frameBytes_length (c v : Byte) : (frameBytes c v).length = Config.frameLen := rfl

end Sys2Proof
end

