-- ==== Sys2Proof/Laws/PerInstr.lean ====
section
/-! SUPPORT. A family of facts about every instruction as syntax: its key carries the match and mask that
spec/opcode_table.json gives its row. -/

namespace Sys2Proof.Laws.TableRow

/-- The width, the match and the mask of an instruction's row in spec/opcode_table.json. -/
def row : Instr → Nat × Nat × Nat
  | .idleH1 => (11, 0x0FF, 0x7FF)
  | .idleSkip _ => (11, 0x000, 0x700)
  | .h1H2 => (11, 0x1FE, 0x7FF)
  | .h1Resync _ => (11, 0x100, 0x700)
  | .cmdLatch _ => (11, 0x200, 0x700)
  | .valLatch _ => (11, 0x300, 0x700)
  | .chkPass _ => (11, 0x400, 0x700)
  | .chkFail _ => (11, 0x400, 0x700)
  | .decFeed => (1, 0x1, 0x1)
  | .decDispatch => (1, 0x1, 0x1)
  | .encSend _ _ => (40, 0xFFFE000000, 0xFFFF000000)
  | .encB0 => (3, 0x0, 0x7)
  | .encB1 => (3, 0x1, 0x7)
  | .encB2 _ => (3, 0x2, 0x7)
  | .encB3 _ => (3, 0x3, 0x7)
  | .encB4 _ _ => (3, 0x4, 0x7)
  | .reset => (1, 0x1, 0x1)

/-- The bits of a key as the opcode table numbers them, and how many there are. -/
def keyBits : Key → Nat × BitVec 40
  | .byteStep bits _ => (11, bits.setWidth 40)
  | .emission idx _ _ => (3, idx.setWidth 40)
  | .portFeed bit => (1, bit.setWidth 40)
  | .portPktValid bit => (1, bit.setWidth 40)
  | .portRst bit => (1, bit.setWidth 40)
  | .frame bits => (40, bits)

/-- The encoded key has the width of the instruction's row, and its bits under the row's mask are the row's match. -/
abbrev Statement (i : Instr) : Prop :=
  (keyBits (encode i)).1 = (row i).1 ∧
  (keyBits (encode i)).2 &&& BitVec.ofNat 40 (row i).2.2 = BitVec.ofNat 40 (row i).2.1

/-- Under the mask of bits 10:8 a byte-step key is the code of `ps` followed by zeros. -/
theorem byteStepBits_masked (ps : Ps) (b : Byte) :
    (byteStepBits ps b).setWidth 40 &&& 0x700#40 = (psCode ps).setWidth 40 <<< 8 := by
  unfold byteStepBits
  cases ps <;> ext i hi <;> interval_cases i <;> simp [psCode]

theorem idleH1 : Statement .idleH1 := by decide
theorem idleSkip (b : Byte) : Statement (.idleSkip b) := ⟨rfl, byteStepBits_masked .idle b⟩
theorem h1H2 : Statement .h1H2 := by decide
theorem h1Resync (b : Byte) : Statement (.h1Resync b) := ⟨rfl, byteStepBits_masked .sawHeader1 b⟩
theorem cmdLatch (b : Byte) : Statement (.cmdLatch b) := ⟨rfl, byteStepBits_masked .sawHeader2 b⟩
theorem valLatch (b : Byte) : Statement (.valLatch b) := ⟨rfl, byteStepBits_masked .sawCmd b⟩
theorem chkPass (b : Byte) : Statement (.chkPass b) := ⟨rfl, byteStepBits_masked .awaitingChecksum b⟩
theorem chkFail (b : Byte) : Statement (.chkFail b) := ⟨rfl, byteStepBits_masked .awaitingChecksum b⟩
theorem decFeed : Statement .decFeed := by decide
theorem decDispatch : Statement .decDispatch := by decide
theorem encSend (command value : Byte) : Statement (.encSend command value) := by
  refine ⟨rfl, ?_⟩
  show frameBits command value (checksum command value) &&& 0xFFFF000000#40 = 0xFFFE000000#40
  unfold frameBits Config.header1 Config.header2
  ext i hi
  interval_cases i <;> simp
theorem encB0 : Statement .encB0 := by decide
theorem encB1 : Statement .encB1 := by decide
theorem encB2 (command : Byte) : Statement (.encB2 command) :=
  ⟨rfl, show (2#3).setWidth 40 &&& 7#40 = 2#40 by decide⟩
theorem encB3 (value : Byte) : Statement (.encB3 value) :=
  ⟨rfl, show (3#3).setWidth 40 &&& 7#40 = 3#40 by decide⟩
theorem encB4 (command value : Byte) : Statement (.encB4 command value) :=
  ⟨rfl, show (4#3).setWidth 40 &&& 7#40 = 4#40 by decide⟩
theorem reset : Statement .reset := by decide

end Sys2Proof.Laws.TableRow
end

