-- ==== Sys2Proof/Tests/Slice0.lean ====
section
/-! SUPPORT. Tests: the well-formedness checks refuse ill-formed terms, words written out from the spec's encodings decode to
what they stand for, one step each of the spec's vectors and traces (spec/95_test_vectors.md), and for every statement with
hypotheses a state that meets them. -/

namespace Sys2Proof.Tests

open Sys2Proof Sys2Proof.Machine Sys2Proof.Safety

/-! ### Small states -/

/-- A Decoder state `(ps, cmd, val, acc)` in the spec's notation, all else as after reset. -/
def decoderIn (ps : Ps) (cmd val acc : Byte) : State := { State.reset with ps := ps, cmd := cmd, val := val, acc := acc }

/-- The Decoder in `ps` inside an invocation, with bytes on the RX stream. -/
def invocationIn (ps : Ps) (acc : Byte) (rx : List Byte) : State :=
  { State.reset with ps := ps, acc := acc, rx := rx, decActive := true }

/-- A send in progress. -/
def sendingAt (idx : Fin 5) (c v : Byte) : State :=
  { State.reset with encBusy := true, encIdx := idx, encCmd := c, encVal := v }

/-- What the environment does next, on the state after reset. -/
def scripted (l : List Stimulus) : State := { State.reset with env := l }

/-- The next state of an outcome, where there is one. -/
def nextState? (o : Result) : Option State :=
  match o with
  | .next s => some s
  | .fault _ => none
  | .refused _ => none

/-- An outcome is a given next state exactly when its next state is that one, which can be decided. -/
theorem eq_next_iff (o : Result) (t : State) : o = .next t ↔ nextState? o = some t := by cases o <;> simp [nextState?]

/-- The Decoder's view of the next state: `(ps, cmd, val, acc)` and the dispatches. -/
def decoderView? (o : Result) : Option (Ps × Byte × Byte × Byte × List Packet) :=
  (nextState? o).map fun s => (s.ps, s.cmd, s.val, s.acc, s.dispatched)

/-- The TX stream of the next state. -/
def tx? (o : Result) : Option (List Byte) := (nextState? o).map State.tx

/-! ### Well-formedness refuses what the decode table cannot select (R55, R71, R74) -/

theorem test_wf_idleSkip_refuses_header1 : (Instr.idleSkip 0xFF).wf = false := by decide
theorem test_wf_h1Resync_refuses_header2 : (Instr.h1Resync 0xFE).wf = false := by decide
theorem test_wf_h1Resync_takes_header1 : (Instr.h1Resync 0xFF).wf = true := by decide

/-! ### Decoding, word by word from R67, R55 and R50 -/

theorem test_decode_idleH1 : decode (.byteStep 0b00011111111 false) = .instr .idleH1 := by decide
theorem test_decode_idleSkip : decode (.byteStep 0b00001000001 false) = .instr (.idleSkip 0x41) := by decide
theorem test_decode_h1H2 : decode (.byteStep 0b00111111110 false) = .instr .h1H2 := by decide
theorem test_decode_h1Resync : decode (.byteStep 0b00111111111 false) = .instr (.h1Resync 0xFF) := by decide
theorem test_decode_cmdLatch : decode (.byteStep 0b01011111111 true) = .instr (.cmdLatch 0xFF) := by decide
theorem test_decode_valLatch : decode (.byteStep 0b01100101010 false) = .instr (.valLatch 0x2A) := by decide
theorem test_decode_chkPass : decode (.byteStep 0b10000101011 true) = .instr (.chkPass 0x2B) := by decide
theorem test_decode_chkFail : decode (.byteStep 0b10000101100 false) = .instr (.chkFail 0x2C) := by decide
theorem test_decode_decFeed : decode (.portFeed 1) = .instr .decFeed := by decide
theorem test_decode_decDispatch : decode (.portPktValid 1) = .instr .decDispatch := by decide
theorem test_decode_encSend :
    decode (.frame 0b1111111111111110000000010010101000101011) = .instr (.encSend 0x01 0x2A) := by decide
theorem test_decode_encB0 : decode (.emission 0b000 0x01 0x2A) = .instr .encB0 := by decide
theorem test_decode_encB1 : decode (.emission 0b001 0x01 0x2A) = .instr .encB1 := by decide
theorem test_decode_encB2 : decode (.emission 0b010 0x01 0x2A) = .instr (.encB2 0x01) := by decide
theorem test_decode_encB3 : decode (.emission 0b011 0x01 0x2A) = .instr (.encB3 0x2A) := by decide
theorem test_decode_encB4 : decode (.emission 0b100 0x01 0x2A) = .instr (.encB4 0x01 0x2A) := by decide
theorem test_decode_reset : decode (.portRst 1) = .instr .reset := by decide

theorem test_decode_refuses_unused_ps_codes :
    decode (.byteStep 0b10111111111 false) = .rejected .unusedPsCode ∧
    decode (.byteStep 0b11100000000 true) = .rejected .unusedPsCode := by decide
theorem test_decode_refuses_unused_enc_idx :
    decode (.emission 0b101 0 0) = .rejected .unusedEncIdx ∧ decode (.emission 0b111 0 0) = .rejected .unusedEncIdx := by
  decide
theorem test_decode_refuses_bad_frames :
    decode (.frame 0xFFFF012A2B) = .rejected .badHeader ∧ decode (.frame 0xFFFE012A2C) = .rejected .badChecksum := by
  decide

/-! ### The host's flat words run as the first thing after reset (log entries 3 and 4) -/

theorem test_word_idleH1 : decodeTableWord 16 0x0FF = some .idleH1 ∧
    decoderView? (step (State.reset.withFetchWord 16 0x0FF)) = some (.sawHeader1, 0, 0, 0, []) := by decide
theorem test_word_chkPass : decodeTableWord 16 0x400 = some (.chkPass 0) ∧
    decoderView? (step (State.reset.withFetchWord 16 0x400)) = some (.idle, 0, 0, 0, [⟨0, 0⟩]) := by decide
theorem test_word_chkFail : decodeTableWord 16 0x401 = some (.chkFail 1) ∧
    decoderView? (step (State.reset.withFetchWord 16 0x401)) = some (.idle, 0, 0, 0, []) := by decide
theorem test_word_cmdLatch : decodeTableWord 16 0x2FF = some (.cmdLatch 0xFF) ∧
    decoderView? (step (State.reset.withFetchWord 16 0x2FF)) = some (.sawCmd, 0xFF, 0, 0xFF, []) := by decide
theorem test_word_encB1 : decodeTableWord 8 1 = some .encB1 ∧
    tx? (step (State.reset.withFetchWord 8 1)) = some [0xFE] := by decide
theorem test_word_decFeed : decodeTableWord 1 1 = some .decFeed ∧
    (nextState? (step (State.reset.withFetchWord 1 1))).isSome = true := by decide
theorem test_word_encSend : decodeTableWord 40 0xFFFEFF0100 = some (.encSend 0xFF 0x01) ∧
    tx? (step (State.reset.withFetchWord 40 0xFFFEFF0100)) = some [0xFF, 0xFE, 0xFF, 0x01, 0x00] := by decide
theorem test_word_refused : decodeTableWord 16 0x500 = none ∧ decodeTableWord 8 5 = none := by decide

/-! ### Byte-steps: vectors V1 to V22 -/

theorem test_V1_idleSkip :
    decoderView? (exec (.idleSkip 0x41) (decoderIn .idle 0x11 0x22 0x33)) = some (.idle, 0x11, 0x22, 0x33, []) := by decide
theorem test_V3_idleH1 :
    decoderView? (exec .idleH1 (decoderIn .idle 0 0 0)) = some (.sawHeader1, 0, 0, 0, []) := by decide
theorem test_V4_h1H2 :
    decoderView? (exec .h1H2 (decoderIn .sawHeader1 0 0 0)) = some (.sawHeader2, 0, 0, 0, []) := by decide
theorem test_V5_h1Resync :
    decoderView? (exec (.h1Resync 0xFF) (decoderIn .sawHeader1 0 0 0)) = some (.idle, 0, 0, 0, []) := by decide
theorem test_V7_cmdLatch :
    decoderView? (exec (.cmdLatch 0x01) (decoderIn .sawHeader2 0x11 0x22 0x33)) =
      some (.sawCmd, 0x01, 0x22, 0x01, []) := by decide
theorem test_V10_valLatch :
    decoderView? (exec (.valLatch 0x2A) (decoderIn .sawCmd 0x01 0x22 0x01)) =
      some (.awaitingChecksum, 0x01, 0x2A, 0x2B, []) := by decide
theorem test_V12_valLatch_wraps :
    decoderView? (exec (.valLatch 0xFF) (decoderIn .sawCmd 0xFF 0x00 0xFF)) =
      some (.awaitingChecksum, 0xFF, 0xFF, 0xFE, []) := by decide
theorem test_V15_chkPass :
    decoderView? (exec (.chkPass 0x2B) (decoderIn .awaitingChecksum 0x01 0x2A 0x2B)) =
      some (.idle, 0x01, 0x2A, 0x2B, [⟨0x01, 0x2A⟩]) := by decide
theorem test_V19_chkFail :
    decoderView? (exec (.chkFail 0xFF) (decoderIn .awaitingChecksum 0x01 0x2A 0x2B)) =
      some (.idle, 0x01, 0x2A, 0x2B, []) := by decide
theorem test_V5_V17_selection :
    byteOperation (decoderIn .sawHeader1 0 0 0) 0xFF = .h1Resync 0xFF ∧
    byteOperation (decoderIn .awaitingChecksum 0xFF 0 0xFF) 0xFF = .chkPass 0xFF ∧
    byteOperation (decoderIn .sawHeader2 0 0 0) 0xFF = .cmdLatch 0xFF := by decide

/-! ### Invocations and sends: vectors V24, V25, V29, W3, P1 -/

theorem test_V25_feed_ends_on_a_failed_comparison :
    (nextState? (exec .decFeed { State.reset with rx := [0xFF, 0xFE, 0x01, 0x2A, 0x2C, 0xFF] })).map
      (fun s => (s.ps, s.acc, s.rx, s.dispatched)) = some (.idle, 0x2B, [0xFF], []) := by decide
theorem test_V24_feed_loses_the_frame_after_a_stray_FF :
    (nextState? (exec .decFeed { State.reset with
      rx := [0xFF, 0xFF, 0xFE, 0x01, 0x2A, 0x2B, 0xFF, 0xFE, 0x02, 0x03, 0x05] })).map
      (fun s => (s.ps, s.acc, s.rx, s.dispatched)) = some (.idle, 0x05, [], [⟨0x02, 0x03⟩]) := by decide
theorem test_dispatch_hands_over_the_registers :
    decoderView? (exec .decDispatch (decoderIn .awaitingChecksum 0x01 0x2A 0x2B)) =
      some (.awaitingChecksum, 0x01, 0x2A, 0x2B, [⟨0x01, 0x2A⟩]) := by decide
theorem test_W3_send_wraps :
    tx? (exec (.encSend 0xFF 0x01) State.reset) = some [0xFF, 0xFE, 0xFF, 0x01, 0x00] := by decide
theorem test_W4_encB4_wraps : tx? (exec (.encB4 0xFF 0xFF) State.reset) = some [0xFE] := by decide
theorem test_W7_encB2_encB3_do_not_escape :
    tx? (exec (.encB2 0xFF) State.reset) = some [0xFF] ∧ tx? (exec (.encB3 0xFE) State.reset) = some [0xFE] := by decide
theorem test_encB0_encB1_ignore_the_latches :
    tx? (exec .encB0 (sendingAt 2 0x01 0x2A)) = some [0xFF] ∧ tx? (exec .encB1 (sendingAt 2 0x01 0x2A)) = some [0xFE] := by
  decide
theorem test_reset_keeps_the_streams :
    exec .reset { sendingAt 2 0x10 0x20 with ps := .sawCmd, cmd := 0x01, acc := 0x01, rx := [0x2A], tx := [0xFF, 0xFE] } =
      .next { State.reset with rx := [0x2A], tx := [0xFF, 0xFE] } := by
  simp only [eq_next_iff]; decide

/-! ### Cycles: rows of the traces T1, T1b, T2, T3 -/

/-- T1 cycle 6: the checksum byte is popped and `pkt_valid` is 1. -/
theorem test_T1_cycle6 :
    let s := { decoderIn .awaitingChecksum 0x01 0x2A 0x2B with decActive := true, rx := [0x2B, 0x55] }
    (outputs Ports.quiet s).pktValid = true ∧ (outputs Ports.quiet s).pktCmd = 0x01 ∧
    (outputs Ports.quiet s).pktValue = 0x2A ∧
    step s = .next { decoderIn .idle 0x01 0x2A 0x2B with rx := [0x55], dispatched := [⟨0x01, 0x2A⟩] } := by
  simp only [eq_next_iff]; decide
/-- T1b cycle 5: the source is empty, the `feed` pulse is ignored. -/
theorem test_T1b_cycle5 :
    cycle { Ports.quiet with feed := true } { decoderIn .sawCmd 0x01 0 0x01 with decActive := true } =
      .next (decoderIn .sawCmd 0x01 0 0x01) := by
  simp only [eq_next_iff]; decide
/-- T1b cycle 9: bytes arrive in the cycle that accepts `feed`, and nothing is popped in it. -/
theorem test_T1b_cycle9 :
    cycle { Ports.quiet with feed := true, arrivals := [0x2A, 0x2B, 0x55] } (decoderIn .sawCmd 0x01 0 0x01) =
      .next { decoderIn .sawCmd 0x01 0 0x01 with decActive := true, rx := [0x2A, 0x2B, 0x55] } := by
  simp only [eq_next_iff]; decide
/-- T2 cycle 6: byte 4 goes out, the request of that cycle is ignored. -/
theorem test_T2_cycle6 :
    cycle { Ports.quiet with txStart := true, txCmd := 0xFF, txValue := 0x01 } (sendingAt 4 0x01 0x2A) =
      .next { State.reset with encCmd := 0x01, encVal := 0x2A, tx := [0x2B] } := by
  simp only [eq_next_iff]; decide
/-- T2 cycle 7: the request is accepted, the operands latched, nothing written. -/
theorem test_T2_cycle7 :
    cycle { Ports.quiet with txStart := true, txCmd := 0xFF, txValue := 0x01 }
      { State.reset with encCmd := 0x01, encVal := 0x2A } = .next (sendingAt 0 0xFF 0x01) := by
  simp only [eq_next_iff]; decide
/-- T3 cycle 4: the Decoder and the Encoder both act. -/
theorem test_T3_cycle4 :
    cycle Ports.quiet { sendingAt 1 0x10 0x20 with ps := .sawHeader2, decActive := true, rx := [0x01, 0x2A], tx := [0xFF] } =
      .next { sendingAt 2 0x10 0x20 with
        ps := .sawCmd, cmd := 0x01, acc := 0x01, decActive := true, rx := [0x2A], tx := [0xFF, 0xFE] } := by
  simp only [eq_next_iff]; decide
/-- T3 cycle 5: `rst` overrides both. -/
theorem test_T3_cycle5 :
    cycle { Ports.quiet with rst := true }
      { sendingAt 2 0x10 0x20 with
        ps := .sawCmd, cmd := 0x01, acc := 0x01, decActive := true, rx := [0x2A], tx := [0xFF, 0xFE] } =
      .next { State.reset with rx := [0x2A], tx := [0xFF, 0xFE] } := by
  simp only [eq_next_iff]; decide
/-- `LOOP` of P1: the environment moves the TX stream to the RX stream. -/
theorem test_P1_loop :
    step { State.reset with tx := [0xFF, 0xFE, 0x01, 0x2A, 0x2B], env := [.loop] } =
      .next { State.reset with rx := [0xFF, 0xFE, 0x01, 0x2A, 0x2B] } := by
  simp only [eq_next_iff]; decide

/-! ### The consumer (R160) and the flush at reset (R173) -/

/-- A consumer that answers the packet handed over last with `SEND CMD_ACK, value`, as program P2 does. -/
def acknowledging : Consumer := ⟨fun packets => packets.reverse.take 1 |>.map fun p => ⟨Config.cmdAck, p.value⟩⟩

/-- P2 with the send made by the consumer: the second `FEED` dispatches `(00, 07)` and TX ends as `FF FE 01 07 08`. -/
theorem test_P2_consumer_acknowledges :
    runStepsWith acknowledging 2 { State.reset with ps := .sawHeader2, rx := [0x00, 0x07, 0x07], env := [.feed none] } =
      .next { decoderIn .idle 0x00 0x07 0x07 with
        tx := [0xFF, 0xFE, 0x01, 0x07, 0x08], dispatched := [⟨0x00, 0x07⟩] } := by
  simp only [eq_next_iff]; decide
/-- At the ports the consumer's request is a cycle with `tx_start` at 1 (R132). -/
theorem test_consumer_speaks_through_the_ports :
    runStepsWith acknowledging 2 { decoderIn .awaitingChecksum 0x00 0x07 0x07 with decActive := true, rx := [0x07] } =
      .next { sendingAt 0 0x01 0x07 with ps := .idle, val := 0x07, acc := 0x07, dispatched := [⟨0x00, 0x07⟩] } := by
  simp only [eq_next_iff]; decide
/-- A reset that the environment does not follow by a flush keeps the bytes that wait; one that it does drops them (R173). -/
theorem test_reset_with_and_without_flush :
    runSteps 1 { State.reset with ps := .sawCmd, rx := [0x2A], env := [.reset] } =
      .next { State.reset with rx := [0x2A] } ∧
    runSteps 1 { State.reset with ps := .sawCmd, rx := [0x2A], env := [.resetFlush true false] } = .next State.reset := by
  simp only [eq_next_iff]; decide

/-! ### Witnesses: for each statement with hypotheses a case that meets all of them, for each clause at its boundaries -/

theorem witness_EncodeThenDecodeGivesInstruction :
    (Instr.idleSkip 0x00).wf = true ∧ (Instr.idleSkip 0xFE).wf = true ∧ (Instr.h1Resync 0xFF).wf = true := by decide
theorem witness_DecodedInstructionReencodesToItsKey :
    decode (.byteStep 0b10000000000 true) = .instr (.chkPass 0) ∧ decode (.byteStep 0b00000000000 true) = .instr (.idleSkip 0) ∧
    decode (.emission 4 0 0xFF) = .instr (.encB4 0 0xFF) ∧ decode (.emission 2 0xFF 0) = .instr (.encB2 0xFF) ∧
    decode (.emission 3 0 0xFF) = .instr (.encB3 0xFF) ∧ decode (.portFeed 1) = .instr .decFeed ∧
    decode (.portPktValid 1) = .instr .decDispatch ∧ decode (.portRst 1) = .instr .reset ∧
    decode (.frame 0xFFFE000000) = .instr (.encSend 0 0) := by decide
theorem witness_ReservedKeysAreRejected :
    5 ≤ ((0b10100000000 : BitVec 11).extractLsb' 8 3).toNat ∧ ¬ 5 ≤ ((0b10011111111 : BitVec 11).extractLsb' 8 3).toNat ∧
    5 ≤ (5 : BitVec 3).toNat ∧ ¬ 5 ≤ (4 : BitVec 3).toNat ∧
    0xFFFE012A2B = frameBits 0x01 0x2A (checksum 0x01 0x2A) ∧
    decode (.frame 0xFFFE012A2C) = .rejected .badChecksum ∧ decode (.frame 0xFFFF012A2B) = .rejected .badHeader := by
  decide
theorem witness_EveryByteSelectsExactlyOneRow :
    (decoderIn .sawHeader2 0 0 0).ps = (decoderIn .sawHeader2 1 2 3).ps ∧
    ((decoderIn .sawHeader2 0 0 0).ps = .awaitingChecksum →
      (decoderIn .sawHeader2 0 0 0).acc = (decoderIn .sawHeader2 1 2 3).acc) := by decide
theorem witness_ValidFramesAndPacketsAreOneToOne :
    validFrame [0xFF, 0xFE, 0xFF, 0xFF, 0xFE] = true ∧ frameBytes 0x01 0x2A = frameBytes 0x01 0x2A := by decide
theorem witness_StepRunsTheSelectedByteStep :
    let s := { invocationIn .idle 0 [] with env := [.cycle { Ports.quiet with arrivals := [0xFF] }] }
    let p := { Ports.quiet with arrivals := [0xFF] }
    (s.env = .cycle p :: [] ∧ p.rst = false ∧ p.txStart = false ∧ s.encBusy = false ∧ s.decActive = true ∧
      s.rx ++ p.arrivals = 0xFF :: []) ∧
    ((invocationIn .awaitingChecksum 0 [0x00]).env = [] ∧ (invocationIn .awaitingChecksum 0 [0x00]).encBusy = false ∧
      (invocationIn .awaitingChecksum 0 [0x00]).decActive = true ∧
      (invocationIn .awaitingChecksum 0 [0x00]).rx = 0x00 :: []) := by decide
theorem witness_StepRunsTheSelectedEmission :
    let s := { sendingAt 4 0x01 0x2A with env := [.cycle Ports.quiet] }
    s.env = .cycle Ports.quiet :: [] ∧ Ports.quiet.rst = false ∧ Ports.quiet.feed = false ∧ s.decActive = false ∧
      s.encBusy = true ∧
    (sendingAt 0 0xFF 0xFF).env = [] ∧ (sendingAt 0 0xFF 0xFF).decActive = false ∧ (sendingAt 0 0xFF 0xFF).encBusy = true ∧
    (sendingAt 4 0xFF 0xFF).env = [] ∧ (sendingAt 4 0xFF 0xFF).encBusy = true := by decide
theorem witness_StepRunsTheScriptStatement :
    (scripted [.reset]).env = .reset :: [] ∧ (scripted [.feed none]).env = .feed none :: [] ∧
    (scripted [.send 0 0xFF]).env = .send 0 0xFF :: [] ∧ (scripted [.rx []]).env = .rx [] :: [] ∧
    (scripted [.loop]).env = .loop :: [] ∧
    (scripted [.resetFlush true false]).env = .resetFlush true false :: [] ∧
    (scripted [.cycle { Ports.quiet with rst := true }]).env = .cycle { Ports.quiet with rst := true } :: [] ∧
    ({ Ports.quiet with rst := true } : Ports).rst = true := by decide
theorem witness_IdleSkipDiscardsTheByte :
    State.reset.ps = .idle ∧ (0x00 : Byte) ≠ 0xFF ∧ (0xFE : Byte) ≠ 0xFF ∧ (0xFF : Byte) ∉ ([] : List Byte) ∧
    (0xFF : Byte) ∉ ([0x00, 0xFE] : List Byte) := by decide
theorem witness_IdleH1BeginsAFrameAttempt :
    State.reset.ps = .idle ∧ (decByte State.reset 0xFF).ps ≠ .idle := by decide
theorem witness_H1H2CompletesTheHeader : (decoderIn .sawHeader1 0 0 0).ps = .sawHeader1 := by decide
theorem witness_H1ResyncReturnsToIdle :
    (decoderIn .sawHeader1 0 0 0).ps = .sawHeader1 ∧ (0xFF : Byte) ≠ 0xFE ∧ (0x00 : Byte) ≠ 0xFE ∧
    State.reset.ps = .idle := by decide
theorem witness_CmdLatchStoresTheCommand : (decoderIn .sawHeader2 0x11 0x22 0x33).ps = .sawHeader2 := by decide
theorem witness_ValLatchStoresTheValue :
    (decoderIn .sawCmd 0xFF 0 0xFF).ps = .sawCmd ∧ AccInv (decoderIn .sawCmd 0xFF 0 0xFF) := by
  unfold AccInv; decide
theorem witness_ChkPassDispatchesTheFrame :
    (decoderIn .awaitingChecksum 0xFF 0x00 0xFF).ps = .awaitingChecksum ∧
    (0xFF : Byte) = (decoderIn .awaitingChecksum 0xFF 0x00 0xFF).acc := by decide
theorem witness_ChkFailDropsTheFrameSilently :
    (decoderIn .awaitingChecksum 0x01 0x2A 0x2B).ps = .awaitingChecksum ∧
    (0xFF : Byte) ≠ (decoderIn .awaitingChecksum 0x01 0x2A 0x2B).acc := by decide
theorem witness_NoByteIsReinterpreted :
    ((decoderIn .sawHeader1 0 0 0).ps = .sawHeader1 ∧ (0xFF : Byte) ≠ 0xFE) ∧
    (decoderIn .awaitingChecksum 0 0 0).ps = .awaitingChecksum ∧ (decoderIn .sawHeader2 0 0 0).ps = .sawHeader2 ∧
    (decoderIn .sawCmd 0 0 0).ps = .sawCmd ∧ (decByte State.reset 0xFF).ps = .sawHeader1 := by decide
theorem witness_FourBytesBringTheDecoderToIdle : ([0xFF, 0xFE, 0xFF, 0xFE] : List Byte).length = 4 := by decide
theorem witness_DecoderStepFrame :
    decoderStep (.cmdLatch 0xFF) = true ∧ exec (.cmdLatch 0xFF) State.reset = .next (decoderIn .sawCmd 0xFF 0 0xFF) ∧
    decoderStep .decDispatch = true ∧
    exec .decDispatch State.reset = .next { State.reset with dispatched := [⟨0, 0⟩] } ∧
    decoderStep .idleH1 = true ∧ exec .idleH1 State.reset = .next (decoderIn .sawHeader1 0 0 0) := by
  simp only [eq_next_iff]; decide
theorem witness_DispatchHandsOverTheLatchedPacket :
    let s := { decoderIn .awaitingChecksum 0x00 0x07 0x07 with decActive := true, rx := [0x07] }
    let t := { decoderIn .idle 0x00 0x07 0x07 with dispatched := [⟨0x00, 0x07⟩] }
    (step s = .next t ∧ t.dispatched = s.dispatched ++ [⟨0x00, 0x07⟩]) ∧
    (step State.reset = .next State.reset ∧ State.reset.dispatched = State.reset.dispatched) := by
  simp only [eq_next_iff]; decide
theorem witness_InvocationEndsInExactlyTwoWays : State.reset.decActive = false ∧ State.reset.rx = [] := by decide
theorem witness_LimitedFeedConsumesAtMostItsLimit :
    (scripted [.feed (some 0)]).decActive = false ∧ (scripted [.feed (some 0)]).env = .feed (some 0) :: [] ∧
    (scripted [.feed (some 6)]).env = .feed (some 6) :: [] := by decide
theorem witness_AtMostOneDispatchPerInvocation : State.reset.decActive = false := by decide
theorem witness_FeedFrame : exec .decFeed State.reset = .next State.reset := by
  simp only [eq_next_iff]; decide
theorem witness_SplitFeedsDispatchTheFrameOnce :
    let ns := [0, 2, 3]
    let s := { State.reset with rx := [0xFF, 0xFE, 0xFF, 0xFF, 0xFE, 0x55], env := ns.map (fun n => .feed (some n)) }
    s.decActive = false ∧ s.ps = .idle ∧ s.rx = frameBytes 0xFF 0xFF ++ [0x55] ∧ ns.sum = 5 ∧
      s.env = ns.map (fun n => .feed (some n)) := by decide
theorem witness_InvocationBoundariesDoNotMatter :
    let s := scripted [.rx [0xFF], .feed none, .rx [0xFE], .feed (some 0), .send 1 2, .feed (some 1)]
    s.decActive = false ∧ (∀ e ∈ s.env, traffic e = true) := by decide
theorem witness_DispatchExactlyOnAFrameMetInIdle :
    State.reset.ps = .idle ∧
    (consume ([0xFF, 0xFE, 0x01, 0x2A] ++ [0x2B]) State.reset).dispatched =
      (consume [0xFF, 0xFE, 0x01, 0x2A] State.reset).dispatched ++ [⟨0x01, 0x2A⟩] ∧
    [0xFF, 0xFE, 0x01, 0x2A] ++ [0x2B] = [] ++ frameBytes 0x01 0x2A ∧ (consume [] State.reset).ps = .idle := by decide
theorem witness_SendLoopFeedDispatchesTheSamePair :
    let s := scripted [.send 0xFF 0xFF, .loop, .feed none]
    s.decActive = false ∧ s.encBusy = false ∧ s.ps = .idle ∧ s.rx = [] ∧ s.tx = [] ∧
      s.env = [.send 0xFF 0xFF, .loop, .feed none] := by decide
theorem witness_NoiseThatLeavesIdleDoesNotHideAFrame :
    let s := { State.reset with rx := [0x00, 0x41, 0xFE, 0x7F] ++ frameBytes 0x01 0x2A ++ [] }
    (s.decActive = false ∧ s.ps = .idle ∧ (0xFF : Byte) ∉ ([0x00, 0x41, 0xFE, 0x7F] : List Byte) ∧
      s.rx = [0x00, 0x41, 0xFE, 0x7F] ++ frameBytes 0x01 0x2A ++ []) ∧
    (consume [0xFF, 0xFF] s).ps = .idle ∧ (consume [0xFF, 0xFF] s).dispatched = s.dispatched := by decide
theorem witness_SingleBitFlipIsNeverDispatched : State.reset.ps = .idle ∧ 0 < 8 ∧ 7 < 8 := by decide
theorem witness_BackToBackFramesNeedTwoInvocations :
    let s := { State.reset with rx := frameBytes 0x01 0x2A ++ (frameBytes 0x00 0x07 ++ [0xFF]) }
    s.decActive = false ∧ s.ps = .idle ∧ s.rx = frameBytes 0x01 0x2A ++ (frameBytes 0x00 0x07 ++ [0xFF]) ∧
    exec .decFeed s = .next { s with cmd := 0x01, val := 0x2A, acc := 0x2B, rx := [0xFF, 0xFE, 0x00, 0x07, 0x07, 0xFF],
                                     dispatched := [⟨0x01, 0x2A⟩] } := by
  simp only [eq_next_iff]; decide
theorem witness_OddRunOfHeaderBytesLosesTheFrame :
    State.reset.ps = .idle ∧
    (consume (List.replicate 1 0xFF ++ frameBytes 0x01 0x2A) State.reset).dispatched = [] ∧
    (consume (List.replicate 2 0xFF ++ frameBytes 0xFD 0x10) State.reset).dispatched = [⟨0xFD, 0x10⟩] := by decide
theorem witness_EmissionsAppendTheirByte : State.reset.encBusy = false := by decide
theorem witness_SendAppendsTheFrame : State.reset.encBusy = false := by decide
theorem witness_RequestsWhileBusyDoNothing :
    (invocationIn .idle 0 []).decActive = true ∧ (sendingAt 0 0 0).encBusy = true := by decide
theorem witness_EncoderFrame :
    encoderOperation (.encSend 1 2) = true ∧
    exec (.encSend 1 2) State.reset = .next { State.reset with tx := [0xFF, 0xFE, 1, 2, 3] } ∧
    encoderOperation .encB0 = true ∧ exec .encB0 State.reset = .next { State.reset with tx := [0xFF] } := by
  simp only [eq_next_iff]; decide
theorem witness_SendAndByteStepAreIndependent :
    State.reset.encBusy = false ∧ (decoderIn .awaitingChecksum 1 2 3).encBusy = false := by decide
theorem witness_DecoderCycleFollowsThePortRules :
    Ports.quiet.rst = false ∧ State.reset.decActive = false ∧
    ((invocationIn .idle 0 []).decActive = true ∧ (invocationIn .idle 0 []).rx ++ Ports.quiet.arrivals = []) ∧
    ((invocationIn .awaitingChecksum 0 [0]).decActive = true ∧
      (invocationIn .awaitingChecksum 0 [0]).rx ++ Ports.quiet.arrivals = 0 :: []) := by decide
theorem witness_EncoderCycleFollowsThePortRules :
    Ports.quiet.rst = false ∧ State.reset.encBusy = false ∧ Ports.quiet.txStart = false ∧
    ({ Ports.quiet with txStart := true } : Ports).txStart = true ∧ (sendingAt 4 0 0).encBusy = true ∧
    (sendingAt 4 0 0).encIdx = 4 ∧ (sendingAt 3 0 0).encBusy = true ∧ (sendingAt 3 0 0).encIdx ≠ 4 ∧
    (sendingAt 0 0 0).encIdx ≠ 4 := by decide
theorem witness_ResetCycleOverridesEverything : ({ Ports.quiet with rst := true } : Ports).rst = true := by decide
theorem witness_OutputPortsTellTheStreams : (outputs Ports.quiet (invocationIn .idle 0 [0x00])).rxPop = true := by decide
theorem witness_RequestsToABusyAgentAreIgnored :
    (invocationIn .idle 0 []).decActive = true ∧ (sendingAt 4 0 0).encBusy = true := by decide
theorem witness_DecoderAndEncoderDoNotInterfere :
    let p : Ports := { Ports.quiet with txStart := true, txCmd := 1 }
    let q : Ports := { Ports.quiet with feed := true, arrivals := [0xFF] }
    let s := sendingAt 4 0x01 0x2A
    let t := invocationIn .sawHeader1 0 [0xFE]
    (p.rst = Ports.quiet.rst ∧ p.feed = Ports.quiet.feed ∧ p.arrivals = Ports.quiet.arrivals ∧ SameDecoder s State.reset ∧
      (nextState? (cycle p s)).isSome = true ∧ (nextState? (cycle Ports.quiet State.reset)).isSome = true) ∧
    (q.rst = Ports.quiet.rst ∧ q.txStart = Ports.quiet.txStart ∧ q.txCmd = Ports.quiet.txCmd ∧
      q.txValue = Ports.quiet.txValue ∧ SameEncoder t State.reset ∧ (nextState? (cycle q t)).isSome = true) := by
  unfold SameDecoder SameEncoder; decide
theorem witness_ClockedInvocationIsFeed : State.reset.decActive = false ∧ State.reset.encBusy = false := by decide
theorem witness_ClockedConsumptionIsAFold :
    ∀ p ∈ [{ Ports.quiet with feed := true }, { Ports.quiet with arrivals := [0xFF] }], p.rst = false := by decide
theorem witness_ClockedSendIsSend :
    let p0 : Ports := { Ports.quiet with txStart := true, txCmd := 0xFF, txValue := 0xFF }
    (∀ p ∈ [p0, p0, p0, p0, p0, Ports.quiet], p.rst = false) ∧ State.reset.encBusy = false ∧ p0.txStart = true := by decide
theorem witness_FrameIsConsumedInFiveCycles :
    let p0 : Ports := { Ports.quiet with feed := true }
    let s := { State.reset with rx := [0xFF, 0xFE, 0x01, 0x2A, 0x2B, 0x55] }
    (∀ p ∈ [p0, Ports.quiet, Ports.quiet, Ports.quiet, p0, Ports.quiet], p.rst = false ∧ p.arrivals = []) ∧
      s.decActive = false ∧ s.ps = .idle ∧ p0.feed = true ∧ s.rx = frameBytes 0x01 0x2A ++ [0x55] := by decide
theorem witness_EndlessNoiseKeepsTheInvocationRunning :
    (invocationIn .idle 0 []).decActive = true ∧ (invocationIn .idle 0 []).ps = .idle ∧ (invocationIn .idle 0 []).rx = [] := by
  decide
theorem witness_EveryStepKeepsTheInvariant :
    MachineInv (invocationIn .idle 0 [0xFF]) ∧
    step (invocationIn .idle 0 [0xFF]) = .next (invocationIn .sawHeader1 0 []) ∧
    MachineInv { sendingAt 4 1 2 with ps := .awaitingChecksum, cmd := 0xFF, val := 0x01, acc := 0x00 } := by
  unfold MachineInv AccInv EncInv; simp only [eq_next_iff]; decide
theorem witness_StaleRegistersHaveNoEffect :
    SameUpToStale (decoderIn .idle 0 0 0) (decoderIn .idle 0x11 0x22 0x33) ∧
    SameUpToStale (decoderIn .sawCmd 1 0 1) (decoderIn .sawCmd 1 0xFF 1) ∧
    step (decoderIn .idle 0 0 0) = .next (decoderIn .idle 0 0 0) := by
  unfold SameUpToStale; simp only [eq_next_iff]; decide
theorem witness_StreamsAreAppendOnly :
    step (scripted [.send 1 2]) = .next { State.reset with tx := [0xFF, 0xFE, 1, 2, 3] } ∧
    step { State.reset with tx := [0xFF], env := [.resetFlush false true] } = .next State.reset ∧
    step { State.reset with rx := [0xFF], env := [.resetFlush true false] } = .next State.reset ∧
    step (invocationIn .idle 0 [0x00]) = .next (invocationIn .idle 0 []) ∧
    step { State.reset with tx := [0xFF], env := [.loop] } = .next { State.reset with rx := [0xFF] } := by
  simp only [eq_next_iff]; decide
theorem witness_EveryOperationCompletes :
    (Instr.decFeed = .decFeed → State.reset.decActive = false) ∧
    (Instr.reset = .decFeed → (invocationIn .idle 0 []).decActive = false) := by decide
theorem witness_EveryRegisterHasItsWriters :
    exec (.cmdLatch 0xFF) State.reset = .next (decoderIn .sawCmd 0xFF 0 0xFF) ∧
    (decoderIn .sawCmd 0xFF 0 0xFF).cmd ≠ State.reset.cmd ∧ (decoderIn .sawCmd 0xFF 0 0xFF).ps ≠ State.reset.ps ∧
    exec (.valLatch 0xFF) State.reset = .next (decoderIn .awaitingChecksum 0 0xFF 0xFF) ∧
    (decoderIn .awaitingChecksum 0 0xFF 0xFF).val ≠ State.reset.val ∧
    exec .reset { sendingAt 1 1 2 with decActive := true } = .next State.reset := by
  simp only [eq_next_iff]; decide
theorem witness_ChannelsAreIsolated :
    let sys : System := { channels := [State.reset, scripted [.send 1 2]] }
    System.stepChannel 1 sys =
      some { channels := [State.reset, { State.reset with tx := [0xFF, 0xFE, 1, 2, 3] }] } ∧
    sys.channels[1]? = some (scripted [.send 1 2]) := by decide

end Sys2Proof.Tests
end

section
/-! PROOFS. The decode table of R55: the one row that applies, what it says of the byte-step, and what the choice looks at. -/

namespace Sys2Proof.Machine

/-- The row of `byteRows` that a byte picks out: the specific row of the state when its test holds, else the default row. -/
def selectedRow (ps : Ps) (b acc : Byte) : ByteRow :=
  match ps with
  | .idle =>
    if b = Config.header1 then ⟨.idle, .isHeader1, "IDLE.H1", .sawHeader1⟩ else ⟨.idle, .notHeader1, "IDLE.SKIP", .idle⟩
  | .sawHeader1 =>
    if b = Config.header2 then ⟨.sawHeader1, .isHeader2, "H1.H2", .sawHeader2⟩
    else ⟨.sawHeader1, .notHeader2, "H1.RESYNC", .idle⟩
  | .sawHeader2 => ⟨.sawHeader2, .anyByte, "CMD.LATCH", .sawCmd⟩
  | .sawCmd => ⟨.sawCmd, .anyByte, "VAL.LATCH", .awaitingChecksum⟩
  | .awaitingChecksum =>
    if b = acc then ⟨.awaitingChecksum, .isAcc, "CHK.PASS", .idle⟩ else ⟨.awaitingChecksum, .notAcc, "CHK.FAIL", .idle⟩

/-- The table is complete and its rows exclude each other: `selectedRow` is the only row that applies. A state's two rows
carry a test and its negation, so the split on that test decides both. -/
theorem filter_rowApplies_byteRows (ps : Ps) (b acc : Byte) :
    byteRows.filter (fun r => rowApplies r ps b acc) = [selectedRow ps b acc] := by
  cases ps with
  | idle => by_cases hb : b = Config.header1 <;> simp [byteRows, rowApplies, condHolds, selectedRow, hb]
  | sawHeader1 => by_cases hb : b = Config.header2 <;> simp [byteRows, rowApplies, condHolds, selectedRow, hb]
  | sawHeader2 | sawCmd => rfl
  | awaitingChecksum => by_cases hb : b = acc <;> simp [byteRows, rowApplies, condHolds, selectedRow, hb]

/-- The row that applies names the operation selected. -/
theorem mnemonicOf_byteOperation (s : State) (b : Byte) :
    mnemonicOf (byteOperation s b) = (selectedRow s.ps b s.acc).mnemonic := by
  unfold byteOperation matchesAcc
  cases s.ps with
  | idle => by_cases hb : b = Config.header1 <;> simp [selectByteStep, selectedRow, mnemonicOf, hb]
  | sawHeader1 => by_cases hb : b = Config.header2 <;> simp [selectByteStep, selectedRow, mnemonicOf, hb]
  | sawHeader2 | sawCmd => rfl
  | awaitingChecksum => by_cases hb : b = s.acc <;> simp [selectByteStep, selectedRow, mnemonicOf, hb]

/-- The row that applies names the `ps` after the byte-step. -/
theorem decByte_ps (s : State) (b : Byte) : (decByte s b).ps = (selectedRow s.ps b s.acc).next := by
  cases h : s.ps with
  | idle =>
    by_cases hb : b = Config.header1
    · subst hb; rw [decByte_idle_header s h]; rfl
    · rw [decByte_idle_other s b h hb, h]; simp [selectedRow, hb]
  | sawHeader1 =>
    by_cases hb : b = Config.header2
    · subst hb; rw [decByte_sawHeader1_header s h]; rfl
    · rw [decByte_sawHeader1_other s b h hb]; simp [selectedRow, hb]
  | sawHeader2 => rw [decByte_sawHeader2 s b h]; rfl
  | sawCmd => rw [decByte_sawCmd s b h]; rfl
  | awaitingChecksum =>
    by_cases hb : b = s.acc
    · subst hb; rw [decByte_pass s h]; simp [selectedRow, acceptFrame]
    · rw [decByte_fail s b h hb]; simp [selectedRow, hb]

/-- The test `b == acc` is looked at in `AwaitingChecksum` only. -/
theorem selectByteStep_congr (ps : Ps) (b : Byte) {e e' : Bool} (h : ps = .awaitingChecksum → e = e') :
    selectByteStep ps b e = selectByteStep ps b e' := by
  cases ps with
  | awaitingChecksum => rw [h rfl]
  | idle | sawHeader1 | sawHeader2 | sawCmd => rfl

/-- Settles O5: `selectedRow` is the one row that applies, and the operation is chosen from `ps`, the byte, and `acc` where
the test on it is looked at. -/
theorem everyByteSelectsExactlyOneRow : Obligations.EveryByteSelectsExactlyOneRow := by
  refine ⟨fun s b => ⟨selectedRow s.ps b s.acc, filter_rowApplies_byteRows s.ps b s.acc,
    mnemonicOf_byteOperation s b, decByte_ps s b⟩, fun s t b hps hacc => ?_⟩
  have htest : s.ps = .awaitingChecksum → matchesAcc b s = matchesAcc b t := fun h => by
    rw [matchesAcc, matchesAcc, hacc h]
  rw [byteOperation, byteOperation, ← hps]
  exact selectByteStep_congr s.ps b htest

end Sys2Proof.Machine
end

section
/-! PROOFS. The byte-steps of 40_decoder_byte_step.md (R71 to R79): which operation a byte selects in each state, what that
operation answers, and where the next bytes lead. An operation's effect is always read off `DecByte` through its selection
(`exec_of_selected`), so each row of R55's table is looked at once. -/

namespace Sys2Proof.Machine

open Sys2Proof.Safety

/-! ### Selection -/

theorem byteOperation_idle_header (s : State) (h : s.ps = .idle) : byteOperation s Config.header1 = .idleH1 := by
  simp [byteOperation, selectByteStep, h]

theorem byteOperation_idle_other (s : State) (b : Byte) (h : s.ps = .idle) (hb : b ≠ Config.header1) :
    byteOperation s b = .idleSkip b := by
  simp [byteOperation, selectByteStep, h, hb]

theorem byteOperation_sawHeader1_header (s : State) (h : s.ps = .sawHeader1) :
    byteOperation s Config.header2 = .h1H2 := by
  simp [byteOperation, selectByteStep, h]

theorem byteOperation_sawHeader1_other (s : State) (b : Byte) (h : s.ps = .sawHeader1) (hb : b ≠ Config.header2) :
    byteOperation s b = .h1Resync b := by
  simp [byteOperation, selectByteStep, h, hb]

theorem byteOperation_sawHeader2 (s : State) (b : Byte) (h : s.ps = .sawHeader2) : byteOperation s b = .cmdLatch b := by
  simp [byteOperation, selectByteStep, h]

theorem byteOperation_sawCmd (s : State) (b : Byte) (h : s.ps = .sawCmd) : byteOperation s b = .valLatch b := by
  simp [byteOperation, selectByteStep, h]

theorem byteOperation_fail (s : State) (b : Byte) (h : s.ps = .awaitingChecksum) (hb : b ≠ s.acc) :
    byteOperation s b = .chkFail b := by
  simp [byteOperation, selectByteStep, matchesAcc, h, hb]

/-- The specific row of `Idle` is the only row that names `IDLE.H1` (R55). -/
theorem byteOperation_eq_idleH1_iff (s : State) (b : Byte) :
    byteOperation s b = .idleH1 ↔ s.ps = .idle ∧ b = Config.header1 := by
  unfold byteOperation
  cases s.ps with
  | idle => simp [selectByteStep]
  | sawHeader1 => by_cases hb : b = Config.header2 <;> simp [selectByteStep, hb]
  | sawHeader2 | sawCmd => simp [selectByteStep]
  | awaitingChecksum => cases matchesAcc b s <;> simp [selectByteStep]

/-- The operation a byte selects has the effect of `DecByte` on that byte (R70). -/
theorem exec_of_selected {s : State} {b : Byte} {i : Instr} (h : byteOperation s b = i) :
    exec i s = .next (decByte s b) := h ▸ (exec_byteOperation s b).1

/-! ### The next `ps` -/

/-- The specific row of `Idle` is the only row that leads into `SawHeader1` (R79). -/
theorem decByte_ps_eq_sawHeader1_iff (s : State) (b : Byte) :
    (decByte s b).ps = .sawHeader1 ↔ s.ps = .idle ∧ b = Config.header1 := by
  rw [decByte_ps]
  cases s.ps with
  | idle => by_cases hb : b = Config.header1 <;> simp [selectedRow, hb]
  | sawHeader1 => by_cases hb : b = Config.header2 <;> simp [selectedRow, hb]
  | sawHeader2 | sawCmd => simp [selectedRow]
  | awaitingChecksum => by_cases hb : b = s.acc <;> simp [selectedRow, hb]

/-- A checksum comparison leads to `Idle` whether it passes or fails (R77, R78). -/
theorem decByte_ps_awaitingChecksum (s : State) (b : Byte) (h : s.ps = .awaitingChecksum) :
    (decByte s b).ps = .idle := by
  by_cases hb : b = s.acc
  · rw [hb, decByte_pass s h, acceptFrame_ps]
  · rw [decByte_fail s b h hb, setPs_ps]

/-! ### Several bytes -/

@[simp] theorem consume_nil (s : State) : consume [] s = s := rfl

@[simp] theorem consume_cons (b : Byte) (B : List Byte) (s : State) : consume (b :: B) s = consume B (decByte s b) := rfl

/-- Bytes that hold no `HEADER_1` leave a Decoder in `Idle` as it is (R71). -/
theorem consume_idle_of_notMem (s : State) (h : s.ps = .idle) (B : List Byte) (hB : Config.header1 ∉ B) :
    consume B s = s := by
  induction B with
  | nil => rfl
  | cons b B ih =>
    obtain ⟨hb, hrest⟩ := List.ne_and_not_mem_of_not_mem_cons hB
    rw [consume_cons, decByte_idle_other s b h hb.symm, ih hrest]

/-- After `HEADER_2` in `SawHeader1` two bytes of any value are accepted (R73, R75, R76). -/
theorem consume_header2_command_value_ps (s : State) (h : s.ps = .sawHeader1) (c v : Byte) :
    (consume [Config.header2, c, v] s).ps = .awaitingChecksum := by
  have hcmd : decByte (setPs .sawHeader2 s) c = latchCommand c (setPs .sawHeader2 s) := decByte_sawHeader2 _ c rfl
  rw [consume_cons, decByte_sawHeader1_header s h, consume_cons, hcmd, consume_cons, decByte_sawCmd _ v rfl]
  rfl

/-- A second `HEADER_1` is spent on the return to `Idle`, so the `HEADER_2` after it is skipped (R74). -/
theorem consume_header1_header1_header2 (t : State) (h : t.ps = .idle) :
    consume [Config.header1, Config.header1, Config.header2] t = t := by
  have hback : setPs .idle (setPs .sawHeader1 t) = t := setPs_of_eq t .idle h
  rw [consume_cons, decByte_idle_header t h, consume_cons, decByte_sawHeader1_other _ _ rfl (by decide), hback,
    consume_cons, decByte_idle_other t _ h (by decide), consume_nil]

/-! ### The obligations -/

/-- Settles O11: the default row of `Idle`, and induction on a run of such bytes. -/
theorem idleSkipDiscardsTheByte : Obligations.IdleSkipDiscardsTheByte := by
  intro s b h hb
  have hsel : byteOperation s b = .idleSkip b := byteOperation_idle_other s b h hb
  exact ⟨hsel, by rw [exec_of_selected hsel, decByte_idle_other s b h hb], rfl, consume_idle_of_notMem s h⟩

/-- Settles O12: the specific row of `Idle`; with any other byte the state stays as it is, so `ps` stays `Idle`. -/
theorem idleH1BeginsAFrameAttempt : Obligations.IdleH1BeginsAFrameAttempt := by
  intro s h
  have hsel : byteOperation s Config.header1 = .idleH1 := byteOperation_idle_header s h
  refine ⟨hsel, ?_, rfl, fun b hleaves => ?_⟩
  · rw [exec_of_selected hsel, decByte_idle_header s h]; rfl
  · have hb : b = Config.header1 := by
      by_contra hother
      exact hleaves (by rw [decByte_idle_other s b h hother, h])
    exact ⟨hb, hb ▸ hsel⟩

/-- Settles O13: the specific row of `SawHeader1`, and then the two rows without a test. -/
theorem h1H2CompletesTheHeader : Obligations.H1H2CompletesTheHeader := by
  intro s h
  have hsel : byteOperation s Config.header2 = .h1H2 := byteOperation_sawHeader1_header s h
  refine ⟨hsel, ?_, rfl, consume_header2_command_value_ps s h⟩
  rw [exec_of_selected hsel, decByte_sawHeader1_header s h]; rfl

/-- Settles O14: the default row of `SawHeader1`, taken by `HEADER_1` too. -/
theorem h1ResyncReturnsToIdle : Obligations.H1ResyncReturnsToIdle := by
  intro s b h hb
  have hsel : byteOperation s b = .h1Resync b := byteOperation_sawHeader1_other s b h hb
  refine ⟨hsel, ?_, rfl, consume_header1_header1_header2⟩
  rw [exec_of_selected hsel, decByte_sawHeader1_other s b h hb]; rfl

/-- Settles O15: the one row of `SawHeader2`. -/
theorem cmdLatchStoresTheCommand : Obligations.CmdLatchStoresTheCommand := by
  intro s b h
  have hsel : byteOperation s b = .cmdLatch b := byteOperation_sawHeader2 s b h
  refine ⟨hsel, ?_, rfl⟩
  rw [exec_of_selected hsel, decByte_sawHeader2 s b h]; rfl

/-- Settles O16: the one row of `SawCmd`; the first clause of `AccInv` turns the sum with `acc` into the sum with `cmd`. -/
theorem valLatchStoresTheValue : Obligations.ValLatchStoresTheValue := by
  intro s b h
  have hsel : byteOperation s b = .valLatch b := byteOperation_sawCmd s b h
  refine ⟨hsel, ⟨latchValue b s, ?_, rfl, ?_, fun ⟨hacc, _⟩ => ?_⟩, rfl⟩
  · rw [exec_of_selected hsel, decByte_sawCmd s b h]
  · rw [latchValue_acc, addMod256, BitVec.toNat_add]
  · rw [latchValue_acc, latchValue_cmd, latchValue_val, hacc h]

/-- Settles O18: the default row of `AwaitingChecksum`. -/
theorem chkFailDropsTheFrameSilently : Obligations.ChkFailDropsTheFrameSilently := by
  intro s b h hb
  have hsel : byteOperation s b = .chkFail b := byteOperation_fail s b h hb
  refine ⟨hsel, ?_, rfl⟩
  rw [exec_of_selected hsel, decByte_fail s b h hb]; rfl

/-- Settles O19: state by state, and `SawHeader1` is entered from the one row that names `IDLE.H1`. -/
theorem noByteIsReinterpreted : Obligations.NoByteIsReinterpreted := by
  intro s b
  refine ⟨fun h hb => ?_, decByte_ps_awaitingChecksum s b, fun h => ?_, fun h => ?_, ?_⟩
  · rw [decByte_sawHeader1_other s b h hb, setPs_ps]
  · rw [decByte_sawHeader2 s b h, latchCommand_ps]
  · rw [decByte_sawCmd s b h, latchValue_ps]
  · exact (decByte_ps_eq_sawHeader1_iff s b).trans (byteOperation_eq_idleH1_iff s b).symm

end Sys2Proof.Machine
end

section
/-! PROOFS. The invocations of 41_decoder_feed_dispatch.md (R91, R99, R100, R102). The loop of `feed` consumes exactly one
prefix of the RX stream, known from the bytes alone: no byte of it follows a checksum comparison, and it is as long as the
limit allows, or takes all there is, or ends in a comparison (`feedRun_eq_consume`). So each law below only says which prefix
that is. -/

namespace Sys2Proof.Machine

open Sys2Proof.Safety

/-! ### Folds of byte-steps -/

theorem consume_append (A B : List Byte) (s : State) : consume (A ++ B) s = consume B (consume A s) :=
  List.foldl_append

theorem consume_setRx (B r : List Byte) (s : State) : consume B (setRx r s) = setRx r (consume B s) := by
  induction B generalizing s with
  | nil => rfl
  | cons b B ih => rw [consume_cons, decByte_setRx, ih, consume_cons]

@[simp] theorem consume_decActive (B : List Byte) (s : State) : (consume B s).decActive = s.decActive := by
  induction B generalizing s with
  | nil => rfl
  | cons b B ih => rw [consume_cons, ih, decByte_decActive]

/-! ### What one invocation may consume (R91 b) -/

theorem oneAttempt_nil (s : State) : OneAttempt s [] := by
  intro pre b post h
  simp at h

/-- The first byte is either compared, and then the last, or the attempt goes on after it. -/
theorem oneAttempt_cons (s : State) (b : Byte) (B : List Byte) :
    OneAttempt s (b :: B) ↔ (s.ps = .awaitingChecksum → B = []) ∧ OneAttempt (decByte s b) B := by
  constructor
  · intro h
    exact ⟨h [] b B rfl, fun pre x post hB => h (b :: pre) x post (by rw [hB, List.cons_append])⟩
  · rintro ⟨hfirst, hlater⟩ pre x post hB hcompared
    cases pre with
    | nil =>
      obtain ⟨rfl, rfl⟩ := List.cons.inj hB
      exact hfirst hcompared
    | cons y pre =>
      obtain ⟨rfl, htail⟩ := List.cons.inj hB
      exact hlater pre x post htail hcompared

/-- An attempt may be cut anywhere. -/
theorem oneAttempt_of_append {s : State} {A B : List Byte} (h : OneAttempt s (A ++ B)) :
    OneAttempt s A ∧ OneAttempt (consume A s) B := by
  constructor
  · intro pre b post hA hcompared
    exact (List.append_eq_nil_iff.mp (h pre b (post ++ B) (by simp [hA]) hcompared)).1
  · intro pre b post hB hcompared
    exact h (A ++ pre) b post (by simp [hB]) (by rwa [ComparesAfter, consume_append])

/-- Bytes skipped in `Idle` are not compared, so an attempt may begin with them. -/
theorem oneAttempt_noise_append {s : State} (h : s.ps = .idle) {noise B : List Byte}
    (hnoise : Config.header1 ∉ noise) (hB : OneAttempt s B) : OneAttempt s (noise ++ B) := by
  induction noise with
  | nil => exact hB
  | cons b noise ih =>
    obtain ⟨hb, hrest⟩ := List.ne_and_not_mem_of_not_mem_cons hnoise
    rw [List.cons_append, oneAttempt_cons, decByte_idle_other s b h hb.symm]
    exact ⟨fun hcompared => by simp [h] at hcompared, ih hrest⟩

theorem not_endsCompared_nil (s : State) : ¬ EndsCompared s [] := by
  rintro ⟨pre, b, h, -⟩
  simp at h

theorem endsCompared_cons (s : State) (b : Byte) (B : List Byte) :
    EndsCompared s (b :: B) ↔ (B = [] ∧ s.ps = .awaitingChecksum) ∨ EndsCompared (decByte s b) B := by
  constructor
  · rintro ⟨pre, x, hB, hcompared⟩
    cases pre with
    | nil =>
      obtain ⟨rfl, rfl⟩ := List.cons.inj hB
      exact .inl ⟨rfl, hcompared⟩
    | cons y pre =>
      obtain ⟨rfl, htail⟩ := List.cons.inj hB
      exact .inr ⟨pre, x, htail, hcompared⟩
  · rintro (⟨rfl, hps⟩ | ⟨pre, x, rfl, hcompared⟩)
    · exact ⟨[], b, rfl, hps⟩
    · exact ⟨b :: pre, x, rfl, hcompared⟩

theorem endsCompared_append {s : State} {A B : List Byte} (h : EndsCompared (consume A s) B) :
    EndsCompared s (A ++ B) := by
  obtain ⟨pre, b, rfl, hcompared⟩ := h
  exact ⟨A ++ pre, b, (List.append_assoc ..).symm, by rwa [ComparesAfter, consume_append]⟩

/-! ### What one invocation does consume (R90, R91) -/

/-- The bytes an invocation consumes always exist: go on until the limit, the end of the bytes or a comparison. -/
theorem exists_invocation_prefix (n : Nat) (bytes : List Byte) (s : State) :
    ∃ B rest, bytes = B ++ rest ∧ B.length ≤ n ∧ OneAttempt s B ∧
      (B.length = n ∨ rest = [] ∨ EndsCompared s B) := by
  induction n generalizing bytes s with
  | zero => exact ⟨[], bytes, rfl, le_rfl, oneAttempt_nil s, .inl rfl⟩
  | succ n ih =>
    cases bytes with
    | nil => exact ⟨[], [], rfl, Nat.zero_le _, oneAttempt_nil s, .inr (.inl rfl)⟩
    | cons b bytes =>
      by_cases hps : s.ps = .awaitingChecksum
      · exact ⟨[b], bytes, rfl, by simp, (oneAttempt_cons s b []).mpr ⟨fun _ => rfl, oneAttempt_nil _⟩,
          .inr (.inr ((endsCompared_cons s b []).mpr (.inl ⟨rfl, hps⟩)))⟩
      · obtain ⟨B, rest, rfl, hlen, hone, hend⟩ := ih bytes (decByte s b)
        refine ⟨b :: B, rest, rfl, Nat.succ_le_succ hlen,
          (oneAttempt_cons s b B).mpr ⟨fun h => absurd h hps, hone⟩, ?_⟩
        exact hend.imp (congrArg Nat.succ) (Or.imp_right fun h => (endsCompared_cons s b B).mpr (.inr h))

/-- The loop of `feed` consumes exactly such a prefix, and does nothing else. -/
theorem feedRun_eq_consume {n : Nat} {s : State} {B rest : List Byte} (hlen : B.length ≤ n) (hone : OneAttempt s B)
    (hend : B.length = n ∨ rest = [] ∨ EndsCompared s B) :
    feedRun n (setRx (B ++ rest) s) = setRx rest (consume B s) := by
  induction B generalizing n s with
  | nil =>
    obtain rfl | rfl | hcompared := hend
    · rfl
    · exact feedRun_nil n _ rfl
    · exact absurd hcompared (not_endsCompared_nil s)
  | cons b B ih =>
    obtain ⟨n, rfl⟩ := Nat.exists_eq_add_one_of_ne_zero (Nat.ne_zero_of_lt hlen)
    obtain ⟨hlast, hone⟩ := (oneAttempt_cons s b B).mp hone
    by_cases hps : s.ps = .awaitingChecksum
    · obtain rfl := hlast hps
      rw [List.cons_append, List.nil_append, feedRun_done n (setRx (b :: rest) s) b rest rfl hps, setRx_setRx,
        decByte_setRx]
      rfl
    · rw [List.cons_append, feedRun_more n (setRx (b :: (B ++ rest)) s) b (B ++ rest) rfl hps, setRx_setRx,
        decByte_setRx]
      have hend : B.length = n ∨ rest = [] ∨ EndsCompared (decByte s b) B :=
        hend.imp Nat.succ.inj (Or.imp_right fun h =>
          ((endsCompared_cons s b B).mp h).resolve_left fun hfirst => hps hfirst.2)
      exact ih (Nat.le_of_succ_le_succ hlen) hone hend

/-- `DEC.FEED` consumes the prefix that ends with the stream or with a comparison. -/
theorem exec_decFeed_eq_consume {s : State} {B rest : List Byte} (hactive : s.decActive = false)
    (hrx : s.rx = B ++ rest) (hone : OneAttempt s B) (hend : rest = [] ∨ EndsCompared s B) :
    exec .decFeed s = .next (consume B (setRx rest s)) := by
  have hlen : B.length ≤ s.rx.length := by rw [hrx, List.length_append]; exact Nat.le_add_right ..
  have hself : setRx (B ++ rest) s = s := by rw [← hrx, setRx_self]
  have hrun := feedRun_eq_consume hlen hone (.inr hend)
  rw [hself] at hrun
  rw [consume_setRx]
  exact invoke_eq_next.mpr ⟨hactive, hrun⟩

/-! ### A frame met in `Idle` -/

theorem consume_frame {s : State} (h : s.ps = .idle) (c v : Byte) :
    consume (frameBytes c v) s =
      { s with cmd := c, val := v, acc := checksum c v, dispatched := s.dispatched ++ [⟨c, v⟩] } := by
  have hlatched : consume [Config.header1, Config.header2, c, v] s = latchValue v (latchCommand c s) := by
    rw [consume_cons, decByte_idle_header s h, consume_cons, decByte_sawHeader1_header _ rfl, consume_cons,
      decByte_sawHeader2 _ c rfl, consume_cons, decByte_sawCmd _ v rfl]
    rfl
  have hframe : frameBytes c v = [Config.header1, Config.header2, c, v] ++ [checksum c v] := rfl
  have hpass : decByte (latchValue v (latchCommand c s)) (checksum c v) =
      acceptFrame (latchValue v (latchCommand c s)) := decByte_pass _ rfl
  rw [hframe, consume_append, hlatched, consume_cons, hpass, consume_nil, acceptFrame, setPs, ← h]
  rfl

/-- A frame is one attempt: its first four bytes are not compared. -/
theorem oneAttempt_frame {s : State} (h : s.ps = .idle) (c v : Byte) : OneAttempt s (frameBytes c v) := by
  rw [frameBytes, oneAttempt_cons, decByte_idle_header s h, oneAttempt_cons, decByte_sawHeader1_header _ rfl,
    oneAttempt_cons, decByte_sawHeader2 _ c rfl, oneAttempt_cons, decByte_sawCmd _ v rfl, oneAttempt_cons]
  simp [h, oneAttempt_nil]

/-- The fifth byte of a frame is compared. -/
theorem endsCompared_frame {s : State} (h : s.ps = .idle) (c v : Byte) : EndsCompared s (frameBytes c v) := by
  have hheader : (consume [Config.header1] s).ps = .sawHeader1 := by
    rw [consume_cons, decByte_idle_header s h, consume_nil, setPs_ps]
  exact ⟨[Config.header1, Config.header2, c, v], checksum c v, rfl,
    consume_header2_command_value_ps _ hheader c v⟩

/-- One invocation over `HEADER_1`-free noise, possibly none, and a frame takes both and dispatches the frame. -/
theorem exec_decFeed_noise_frame {s : State} {noise rest : List Byte} {c v : Byte} (hactive : s.decActive = false)
    (h : s.ps = .idle) (hnoise : Config.header1 ∉ noise) (hrx : s.rx = noise ++ frameBytes c v ++ rest) :
    exec .decFeed s = .next { s with
      cmd := c, val := v, acc := checksum c v, rx := rest, dispatched := s.dispatched ++ [⟨c, v⟩] } := by
  have hone : OneAttempt s (noise ++ frameBytes c v) :=
    oneAttempt_noise_append h hnoise (oneAttempt_frame h c v)
  have hend : EndsCompared s (noise ++ frameBytes c v) := endsCompared_append (by
    rw [consume_idle_of_notMem s h noise hnoise]
    exact endsCompared_frame h c v)
  rw [exec_decFeed_eq_consume hactive hrx hone (.inr hend), consume_append,
    consume_idle_of_notMem (setRx rest s) h noise hnoise, consume_frame (s := setRx rest s) h]
  rfl

/-! ### A run of limited invocations (R100) -/

/-- Invocations that are limited to numbers of bytes which sum to the length of one attempt consume that attempt, wherever
the limits cut it. -/
theorem runSteps_limited_feeds {ns : List Nat} {s : State} {B rest : List Byte} (hactive : s.decActive = false)
    (hone : OneAttempt s B) (hsum : ns.sum = B.length) :
    runSteps ns.length (setEnv (ns.map fun n => .feed (some n)) (setRx (B ++ rest) s)) =
      .next (setEnv [] (setRx rest (consume B s))) := by
  induction ns generalizing s B with
  | nil =>
    obtain rfl := List.eq_nil_of_length_eq_zero hsum.symm
    rfl
  | cons n ns ih =>
    rw [List.sum_cons] at hsum
    have htake : (B.take n).length = n := List.length_take_of_le (by omega)
    have hdrop : ns.sum = (B.drop n).length := by rw [List.length_drop]; omega
    rw [← List.take_append_drop n B] at hone
    obtain ⟨honeTake, honeDrop⟩ := oneAttempt_of_append hone
    have hrun : feedRun n (setRx (B ++ rest) s) = setRx (B.drop n ++ rest) (consume (B.take n) s) := by
      rw [← feedRun_eq_consume htake.le honeTake (.inl htake), ← List.append_assoc, List.take_append_drop]
    have hinvoke : invoke n (setRx (B ++ rest) s) = .next (setRx (B.drop n ++ rest) (consume (B.take n) s)) :=
      invoke_eq_next.mpr ⟨hactive, hrun⟩
    rw [List.length_cons, runSteps, List.map_cons, step_stimulus _ _ _ rfl, setEnv_setEnv, runStimulus,
      invoke_setEnv, hinvoke, replaceEnv_next, andThen_next,
      ih (by rw [consume_decActive, hactive]) honeDrop hdrop, ← consume_append, List.take_append_drop]

/-! ### The obligations -/

/-- Settles O24: the prefix exists for the limit that `DEC.FEED` has, the number of bytes on RX, and a prefix of that length
leaves nothing. -/
theorem invocationEndsInExactlyTwoWays : Obligations.InvocationEndsInExactlyTwoWays := by
  intro s hactive
  refine ⟨?_, fun hrx => invoke_eq_next.mpr ⟨hactive, feedRun_nil _ s hrx⟩⟩
  obtain ⟨B, rest, hrx, -, hone, hend⟩ := exists_invocation_prefix s.rx.length s.rx s
  have hend : rest = [] ∨ EndsCompared s B := by
    obtain hall | hend := hend
    · exact .inl (List.eq_nil_of_length_eq_zero (by simpa [hrx] using hall))
    · exact hend
  exact ⟨B, rest, hrx, exec_decFeed_eq_consume hactive hrx hone hend, hone, hend⟩

/-- Settles O28: a frame met in `Idle` is one attempt of five bytes. -/
theorem splitFeedsDispatchTheFrameOnce : Obligations.SplitFeedsDispatchTheFrameOnce := by
  intro s c v rest ns hactive hps hrx hsum henv
  have hstart : s = setEnv (ns.map fun n => .feed (some n)) (setRx (frameBytes c v ++ rest) s) := by
    rw [← henv, ← hrx]; rfl
  have hrun := runSteps_limited_feeds (rest := rest) hactive (oneAttempt_frame hps c v) hsum
  rw [← hstart, consume_frame hps] at hrun
  exact hrun

/-- Settles O32: noise without `HEADER_1` leaves `Idle` as it is; after any noise only `Idle` matters; and a lone `HEADER_1`
takes the frame's first byte with it, after which no byte is `HEADER_1`. -/
theorem noiseThatLeavesIdleDoesNotHideAFrame : Obligations.NoiseThatLeavesIdleDoesNotHideAFrame := by
  refine ⟨fun s noise rest c v hactive hps hnoise hrx => exec_decFeed_noise_frame hactive hps hnoise hrx,
    fun s noise c v hps hdispatched => ?_, fun s hps => ?_⟩
  · rw [consume_append, consume_frame hps, hdispatched]
  · have hsplit : ([0xFF, 0xFF, 0xFE, 0x01, 0x2A, 0x2B] : List Byte) =
        [Config.header1, Config.header1, Config.header2] ++ [0x01, 0x2A, 0x2B] := rfl
    rw [hsplit, consume_append, consume_header1_header1_header2 s hps,
      consume_idle_of_notMem s hps _ (by decide)]

/-- Settles O34: an invocation over a frame leaves `Idle` and the bytes after the frame, so the next one does the same. -/
theorem backToBackFramesNeedTwoInvocations : Obligations.BackToBackFramesNeedTwoInvocations := by
  intro s c v c' v' rest hactive hps hrx
  have hfirst := exec_decFeed_noise_frame (noise := []) hactive hps List.not_mem_nil hrx
  refine ⟨hfirst, fun t ht => ?_⟩
  rw [hfirst] at ht
  cases ht
  refine Eq.trans (exec_decFeed_noise_frame (noise := []) hactive hps List.not_mem_nil rfl) ?_
  rw [List.append_assoc]
  rfl

end Sys2Proof.Machine
end

section
/-! PROOFS. The Encoder's operations of 42_encoder.md (R105 to R110, R114): each emission is one `TxWrite`, a send is five of
them in order, and a byte-step commutes with a `TxWrite` (`decByte_txWrite`), so it commutes with a send. -/

namespace Sys2Proof.Machine

/-! ### Emissions and sends as writes to the TX stream -/

theorem exec_encB0 (s : State) : exec .encB0 s = .next (txWrite Config.header1 s) := rfl

theorem exec_encB1 (s : State) : exec .encB1 s = .next (txWrite Config.header2 s) := rfl

theorem exec_encB2 (c : Byte) (s : State) : exec (.encB2 c) s = .next (txWrite c s) := rfl

theorem exec_encB3 (v : Byte) (s : State) : exec (.encB3 v) s = .next (txWrite v s) := rfl

theorem exec_encB4 (c v : Byte) (s : State) : exec (.encB4 c v) s = .next (txWrite (checksum c v) s) := rfl

/-- With no port-level send in progress the guard of `ENC.SEND` (log entry 10) lets the five writes through. -/
theorem exec_encSend_of_not_encBusy {s : State} (h : s.encBusy = false) (c v : Byte) :
    exec (.encSend c v) s = writeFrame c v s := by
  rw [exec, execEncSend, h, if_neg Bool.false_ne_true]

theorem exec_encSend_appends_frame {s : State} (h : s.encBusy = false) (c v : Byte) :
    exec (.encSend c v) s = .next { s with tx := s.tx ++ frameBytes c v } := by
  rw [exec_encSend_of_not_encBusy h, writeFrame_eq]

/-- The five writes as one state, the byte of offset 0 innermost. -/
theorem writeFrame_eq_txWrite (c v : Byte) (s : State) :
    writeFrame c v s = .next (txWrite (checksum c v) (txWrite v (txWrite c
      (txWrite Config.header2 (txWrite Config.header1 s))))) := rfl

/-- R114: a byte-step before the writes of a send or after them makes no difference. -/
theorem writeFrame_decByte (c v : Byte) (s : State) (b : Byte) :
    writeFrame c v (decByte s b) = andThen (writeFrame c v s) fun t => .next (decByte t b) := by
  rw [writeFrame_eq_txWrite, writeFrame_eq_txWrite, andThen_next]
  simp only [decByte_txWrite]

/-! ### The obligations -/

/-- Settles O36: each emission is one write, the last one of the checksum, whose value wraps; and an unguarded send is defined
as the five. -/
theorem emissionsAppendTheirByte : Obligations.EmissionsAppendTheirByte := by
  intro s c v
  refine ⟨exec_encB0 s, exec_encB1 s, exec_encB2 c s, exec_encB3 v s,
    ⟨checksum c v, checksum_toNat c v, exec_encB4 c v s⟩, fun h => ?_⟩
  exact exec_encSend_of_not_encBusy h c v

/-- Settles O40: what a send appends is the frame of its operands, and a byte-step, which leaves `enc_busy` alone, commutes
with its writes. -/
theorem sendAndByteStepAreIndependent : Obligations.SendAndByteStepAreIndependent := by
  refine ⟨fun c v => ⟨frameBytes c v, fun s h => exec_encSend_appends_frame h c v⟩, fun s b c v h =>
    ⟨{ s with tx := s.tx ++ frameBytes c v }, exec_encSend_appends_frame h c v, ?_⟩⟩
  have hafter : (decByte s b).encBusy = false := by rw [decByte_encBusy, h]
  rw [exec_encSend_of_not_encBusy hafter, writeFrame_decByte, writeFrame_eq, andThen_next]

end Sys2Proof.Machine
end

section
/-! PROOFS. The keys of R67 and R50: a key space is read back from its fields, so every instruction is read from its own key,
a key that decodes is the key of what it decodes to, and what is rejected is what no field value stands for. -/

namespace Sys2Proof

/-! ### The byte-step key -/

/-- The two fields of a byte-step key make it up. -/
theorem byteStepBits_fields {bits : BitVec 11} {ps : Ps} (h : psOfCode (bits.extractLsb' 8 3) = some ps) :
    byteStepBits ps (bits.extractLsb' 0 8) = bits := by
  rw [byteStepBits, psCode_of_psOfCode h]
  ext i hi
  interval_cases i <;> simp

/-- Codes 5 to 7 stand for no value of `ps` (D20). -/
theorem psOfCode_eq_none_iff (code : BitVec 3) : psOfCode code = none ↔ 5 ≤ code.toNat := by
  revert code; decide

theorem decode_byteStepBits (ps : Ps) (b : Byte) (e : Bool) :
    decode (.byteStep (byteStepBits ps b) e) = .instr (selectByteStep ps b e) := by
  simp [decode, decodeByteStep]

/-- The default rows are taken only by the bytes that their specific rows leave (R55). -/
theorem selectByteStep_wf (ps : Ps) (b : Byte) (e : Bool) : (selectByteStep ps b e).wf = true := by
  cases ps with
  | idle => by_cases hb : b = Config.header1 <;> simp [selectByteStep, Instr.wf, hb]
  | sawHeader1 => by_cases hb : b = Config.header2 <;> simp [selectByteStep, Instr.wf, hb]
  | sawHeader2 | sawCmd => rfl
  | awaitingChecksum => cases e <;> rfl

/-- The key of the selected operation has the bits it was selected by; the test on `acc` is in it where it was looked at. -/
theorem encode_selectByteStep (ps : Ps) (b : Byte) (e : Bool) :
    ∃ e', encode (selectByteStep ps b e) = .byteStep (byteStepBits ps b) e' ∧ (ps = .awaitingChecksum → e' = e) := by
  cases ps with
  | idle => by_cases hb : b = Config.header1 <;> simp [selectByteStep, encode, hb]
  | sawHeader1 => by_cases hb : b = Config.header2 <;> simp [selectByteStep, encode, hb]
  | sawHeader2 | sawCmd => simp [selectByteStep, encode]
  | awaitingChecksum => cases e <;> simp [selectByteStep, encode]

theorem decode_byteStep_eq_instr {bits : BitVec 11} {e : Bool} {i : Instr} (h : decode (.byteStep bits e) = .instr i) :
    ∃ ps, psOfCode (bits.extractLsb' 8 3) = some ps ∧ i = selectByteStep ps (bits.extractLsb' 0 8) e := by
  cases hps : psOfCode (bits.extractLsb' 8 3) with
  | none => simp [decode, decodeByteStep, hps] at h
  | some ps =>
    simp only [decode, decodeByteStep, hps, Decoded.instr.injEq] at h
    exact ⟨ps, rfl, h.symm⟩

/-! ### The `enc_idx` key -/

/-- Codes 5 to 7 stand for no frame offset (D20). -/
theorem offsetOfCode_eq_none_iff (idx : BitVec 3) : offsetOfCode idx = none ↔ 5 ≤ idx.toNat := by
  simp [offsetOfCode]

/-- A code that stands for a frame offset is that offset's number. -/
theorem offsetOfCode_eq_some_iff (idx : BitVec 3) (k : Fin 5) : offsetOfCode idx = some k ↔ idx = BitVec.ofNat 3 k.val := by
  revert idx k; decide

theorem offset_of_code_eq {j k : Fin 5} (h : BitVec.ofNat 3 j.val = BitVec.ofNat 3 k.val) : j = k := by
  revert j k; decide

theorem decode_emission_offset (k : Fin 5) (c v : Byte) :
    decode (.emission (BitVec.ofNat 3 k.val) c v) = .instr (selectEmission k c v) := by
  rw [decode, decodeEmission, (offsetOfCode_eq_some_iff _ k).mpr rfl]

theorem selectEmission_wf (k : Fin 5) (c v : Byte) : (selectEmission k c v).wf = true := by
  fin_cases k <;> rfl

/-- The key of the selected emission has its offset, and the operands that the emission looks at (R106 to R110). -/
theorem encode_selectEmission (k : Fin 5) (c v : Byte) :
    ∃ c' v', encode (selectEmission k c v) = .emission (BitVec.ofNat 3 k.val) c' v' ∧
      (k = 2 ∨ k = 4 → c' = c) ∧ (k = 3 ∨ k = 4 → v' = v) := by
  match k with
  | 0 | 1 => exact ⟨Config.resetByte, Config.resetByte, rfl, by simp, by simp⟩
  | 2 => exact ⟨c, Config.resetByte, rfl, fun _ => rfl, by simp⟩
  | 3 => exact ⟨Config.resetByte, v, rfl, by simp, fun _ => rfl⟩
  | 4 => exact ⟨c, v, rfl, fun _ => rfl, fun _ => rfl⟩

theorem decode_emission_eq_instr {idx : BitVec 3} {c v : Byte} {i : Instr} (h : decode (.emission idx c v) = .instr i) :
    ∃ k : Fin 5, idx = BitVec.ofNat 3 k.val ∧ i = selectEmission k c v := by
  cases hk : offsetOfCode idx with
  | none => simp [decode, decodeEmission, hk] at h
  | some k =>
    simp only [decode, decodeEmission, hk, Decoded.instr.injEq] at h
    exact ⟨k, (offsetOfCode_eq_some_iff idx k).mp hk, h.symm⟩

/-! ### The one-bit ports -/

theorem decodePort_eq_instr {bit : BitVec 1} {i j : Instr} (h : decodePort bit i = .instr j) : bit = 1 ∧ j = i := by
  by_cases hbit : bit = 1 <;> simp_all [decodePort]

theorem decodePort_rejected_iff (bit : BitVec 1) (i : Instr) :
    ((∃ r, decodePort bit i = .rejected r) ↔ bit = 0) ∧ (decodePort bit i = .rejected .portLow ↔ bit = 0) := by
  obtain rfl | rfl : bit = 0 ∨ bit = 1 := by revert bit; decide
  · simp [decodePort]
  · simp [decodePort]

/-! ### The frame pattern -/

/-- A 40-bit pattern is made up of its five bytes. -/
theorem frameBitsByte_injective {a b : BitVec 40} (h : ∀ k < 5, frameBitsByte a k = frameBitsByte b k) : a = b := by
  ext i hi
  have hbyte := congrArg (·.getLsbD (i % 8)) (h (4 - i / 8) (by omega))
  have hpos : 8 * (4 - (4 - i / 8)) + i % 8 = i := by omega
  simpa [frameBitsByte, hpos, Nat.mod_lt, BitVec.getLsbD_eq_getElem hi] using hbyte

/-- A pattern is the frame of `c`, `v` exactly when its bytes are the frame's (R50). -/
theorem eq_frameBits_iff (bits : BitVec 40) (c v : Byte) :
    bits = frameBits c v (checksum c v) ↔
      frameBitsByte bits 0 = Config.header1 ∧ frameBitsByte bits 1 = Config.header2 ∧ frameBitsByte bits 2 = c ∧
        frameBitsByte bits 3 = v ∧ frameBitsByte bits 4 = checksum c v := by
  constructor
  · rintro rfl; exact frameBitsByte_frameBits c v _
  · rintro ⟨h0, h1, h2, h3, h4⟩
    obtain ⟨g0, g1, g2, g3, g4⟩ := frameBitsByte_frameBits c v (checksum c v)
    refine frameBitsByte_injective fun k hk => ?_
    interval_cases k
    · rw [h0, g0]
    · rw [h1, g1]
    · rw [h2, g2]
    · rw [h3, g3]
    · rw [h4, g4]

/-- The decoder reads a send from a pattern exactly when the pattern is the frame of its operands (R50). -/
theorem decodeFrame_eq_instr_iff (bits : BitVec 40) (i : Instr) :
    decodeFrame bits = .instr i ↔ ∃ c v, i = .encSend c v ∧ bits = frameBits c v (checksum c v) := by
  simp only [eq_frameBits_iff]
  simp only [decodeFrame]
  constructor
  · intro h
    split at h
    case isTrue hheader =>
      split at h
      case isTrue hcheck => exact ⟨_, _, (Decoded.instr.inj h).symm, hheader.1, hheader.2, rfl, rfl, hcheck⟩
      case isFalse => nomatch h
    case isFalse => nomatch h
  · rintro ⟨c, v, rfl, h0, h1, rfl, rfl, h4⟩
    simp [h0, h1, h4]

theorem decode_frame_frameBits (c v : Byte) :
    decode (.frame (frameBits c v (checksum c v))) = .instr (.encSend c v) :=
  (decodeFrame_eq_instr_iff _ _).mpr ⟨c, v, rfl, rfl⟩

/-! ### The obligations on the decoder -/

/-- Settles O1: row by row. A byte-step is selected by the fields of its key, an emission by its offset, a send is read from
its frame; well-formedness is what the default rows of `Idle` and `SawHeader1` ask for. -/
theorem encodeThenDecodeGivesInstruction : Obligations.EncodeThenDecodeGivesInstruction := by
  intro i hwf
  cases i with
  | idleH1 | h1H2 => rfl
  | idleSkip b =>
    have hb : b ≠ Config.header1 := by simpa [Instr.wf] using hwf
    rw [encode, decode_byteStepBits, selectByteStep, if_neg hb]
  | h1Resync b =>
    have hb : b ≠ Config.header2 := by simpa [Instr.wf] using hwf
    rw [encode, decode_byteStepBits, selectByteStep, if_neg hb]
  | cmdLatch b => exact decode_byteStepBits .sawHeader2 b false
  | valLatch b => exact decode_byteStepBits .sawCmd b false
  | chkPass b => exact decode_byteStepBits .awaitingChecksum b true
  | chkFail b => exact decode_byteStepBits .awaitingChecksum b false
  | decFeed | decDispatch | reset => rfl
  | encSend c v => exact decode_frame_frameBits c v
  | encB0 => exact decode_emission_offset 0 _ _
  | encB1 => exact decode_emission_offset 1 _ _
  | encB2 c => exact decode_emission_offset 2 c _
  | encB3 v => exact decode_emission_offset 3 _ v
  | encB4 c v => exact decode_emission_offset 4 c v

/-- Settles O2: in each key space the instruction decoded is the one selected by the key's fields; it is well-formed, so O1
gives the second clause, and its key is made up of the same fields. -/
theorem decodedInstructionReencodesToItsKey : Obligations.DecodedInstructionReencodesToItsKey := by
  have hclosed : ∀ i : Instr, i.wf = true → i.wf = true ∧ decode (encode i) = .instr i :=
    fun i hwf => ⟨hwf, encodeThenDecodeGivesInstruction i hwf⟩
  intro k i h
  rw [← and_assoc]
  cases k with
  | byteStep bits e =>
    obtain ⟨ps, hps, rfl⟩ := decode_byteStep_eq_instr h
    obtain ⟨e', henc, hacc⟩ := encode_selectByteStep ps (bits.extractLsb' 0 8) e
    rw [byteStepBits_fields hps] at henc
    exact ⟨hclosed _ (selectByteStep_wf ..), e', henc, fun h => hacc (Option.some.inj (hps.symm.trans h))⟩
  | emission idx c v =>
    obtain ⟨k, rfl, rfl⟩ := decode_emission_eq_instr h
    obtain ⟨c', v', henc, hc, hv⟩ := encode_selectEmission k c v
    exact ⟨hclosed _ (selectEmission_wf ..), c', v', henc, fun h => hc (h.imp offset_of_code_eq offset_of_code_eq),
      fun h => hv (h.imp offset_of_code_eq offset_of_code_eq)⟩
  | portFeed bit =>
    obtain ⟨rfl, rfl⟩ := decodePort_eq_instr h
    exact ⟨hclosed _ rfl, rfl⟩
  | portPktValid bit =>
    obtain ⟨rfl, rfl⟩ := decodePort_eq_instr h
    exact ⟨hclosed _ rfl, rfl⟩
  | portRst bit =>
    obtain ⟨rfl, rfl⟩ := decodePort_eq_instr h
    exact ⟨hclosed _ rfl, rfl⟩
  | frame bits =>
    obtain ⟨c, v, rfl, rfl⟩ := (decodeFrame_eq_instr_iff bits i).mp h
    exact ⟨hclosed _ rfl, rfl⟩

/-- A key is rejected exactly when no instruction is read from it. -/
theorem rejected_iff_not_instr (d : Decoded) : (∃ r, d = .rejected r) ↔ ¬ ∃ i, d = .instr i := by
  cases d <;> simp

/-- A byte-step key has one reason to be rejected, an unused code. -/
theorem decode_byteStep_rejected_iff (bits : BitVec 11) (e : Bool) :
    ((∃ r, decode (.byteStep bits e) = .rejected r) ↔ 5 ≤ (bits.extractLsb' 8 3).toNat) ∧
    (decode (.byteStep bits e) = .rejected .unusedPsCode ↔ 5 ≤ (bits.extractLsb' 8 3).toNat) := by
  rw [← psOfCode_eq_none_iff]
  cases hps : psOfCode (bits.extractLsb' 8 3) <;> simp [decode, decodeByteStep, hps]

/-- An `enc_idx` key has one reason to be rejected, an unused code. -/
theorem decode_emission_rejected_iff (idx : BitVec 3) (c v : Byte) :
    ((∃ r, decode (.emission idx c v) = .rejected r) ↔ 5 ≤ idx.toNat) ∧
    (decode (.emission idx c v) = .rejected .unusedEncIdx ↔ 5 ≤ idx.toNat) := by
  rw [← offsetOfCode_eq_none_iff]
  cases hk : offsetOfCode idx <;> simp [decode, decodeEmission, hk]

/-- Settles O3: space by space; a pattern of 40 bits is rejected when it is not read as a send, and it is read as the send of
the one frame that it is. -/
theorem reservedKeysAreRejected : Obligations.ReservedKeysAreRejected := by
  refine ⟨decode_byteStep_rejected_iff, decode_emission_rejected_iff, fun bit => ?_, fun bits => ⟨?_, fun c v => ?_⟩⟩
  · obtain ⟨hfeed, hfeedLow⟩ := decodePort_rejected_iff bit .decFeed
    obtain ⟨hpkt, hpktLow⟩ := decodePort_rejected_iff bit .decDispatch
    obtain ⟨hrst, hrstLow⟩ := decodePort_rejected_iff bit .reset
    exact ⟨hfeed, hfeedLow, hpkt, hpktLow, hrst, hrstLow⟩
  · rw [rejected_iff_not_instr, not_iff_not]
    constructor
    · rintro ⟨i, h⟩
      obtain ⟨c, v, -, hbits⟩ := (decodeFrame_eq_instr_iff bits i).mp h
      exact ⟨c, v, hbits⟩
    · rintro ⟨c, v, rfl⟩
      exact ⟨_, decode_frame_frameBits c v⟩
  · constructor
    · intro h
      obtain ⟨c', v', hi, hbits⟩ := (decodeFrame_eq_instr_iff bits _).mp h
      cases hi
      exact hbits
    · rintro rfl; exact decode_frame_frameBits c v

/-- Settles O4: eleven closed words, decoded by evaluation. -/
theorem specWordsDecode : Obligations.SpecWordsDecode := by
  unfold Obligations.SpecWordsDecode
  decide

/-! ### Frames and packets (R53) -/

theorem validFrame_frameBytes (c v : Byte) : validFrame (frameBytes c v) = true := by simp [validFrame, frameBytes]

/-- A valid frame is five bytes, and three of them are what the other two ask for. -/
theorem eq_frameBytes_of_validFrame {bytes : List Byte} (h : validFrame bytes = true) :
    ∃ c v, bytes = frameBytes c v := by
  unfold validFrame at h
  split at h
  · next b0 b1 c v k =>
    simp only [Bool.and_eq_true, beq_iff_eq] at h
    obtain ⟨⟨rfl, rfl⟩, rfl⟩ := h
    exact ⟨c, v, rfl⟩
  · nomatch h

/-- Settles O6: the frame is its own description, and its bytes 2 and 3 are the packet. -/
theorem validFramesAndPacketsAreOneToOne : Obligations.ValidFramesAndPacketsAreOneToOne := by
  refine ⟨fun bytes => ⟨eq_frameBytes_of_validFrame, ?_⟩, fun c v => ?_, fun c v c' v' h => ?_⟩
  · rintro ⟨c, v, rfl⟩; exact validFrame_frameBytes c v
  · exact if_pos (validFrame_frameBytes c v)
  · simp only [frameBytes, List.cons.injEq, true_and] at h
    exact ⟨h.1, h.2.1⟩

/-! ### The arithmetic operation (R64) -/

theorem addMod256_toNat (a b : Byte) : (addMod256 a b).toNat = (a.toNat + b.toNat) % 256 := BitVec.toNat_add a b

/-- Settles O7: the sum of two bytes is at most 510, so one subtraction of 256 reduces it; the rest are the laws of an
additive group. -/
theorem additionWrapsModulo256 : Obligations.AdditionWrapsModulo256 := by
  intro a b c
  refine ⟨?_, BitVec.add_comm a b, BitVec.add_assoc a b c, AddGroup.addLeft_bijective a⟩
  have ha := a.isLt
  have hb := b.isLt
  rw [addMod256_toNat]
  split <;> omega

end Sys2Proof
end

section
/-! PROOFS. The laws of the byte-steps (R70, R80, R81) and of the dispatch (R95, R96, R101, R178). Between two returns to `Idle`
the Decoder has read exactly the bytes of one open frame attempt (`openAttempt`), one more with each byte, and a dispatch needs
four of them; so a dispatch is the fifth byte of a frame, and fewer bytes dispatch nothing. -/

namespace Sys2Proof.Machine

open Sys2Proof.Safety

/-! ### The selected operation -/

theorem decode_byteStepKey (s : State) (b : Byte) : decode (byteStepKey s b) = .instr (byteOperation s b) :=
  decode_byteStepBits ..

theorem byteOperation_wf (s : State) (b : Byte) : (byteOperation s b).wf = true := selectByteStep_wf ..

theorem byteOperation_pass (s : State) (h : s.ps = .awaitingChecksum) : byteOperation s s.acc = .chkPass s.acc := by
  simp [byteOperation, selectByteStep, matchesAcc, h]

/-- Settles O20: the key of a state and a byte is made of the fields by which the operation is selected. -/
theorem decByteIsTheSelectedOperation : Obligations.DecByteIsTheSelectedOperation := by
  intro s b
  obtain ⟨hexec, hdone⟩ := exec_byteOperation s b
  exact ⟨byteOperation s b, decode_byteStepKey s b, byteOperation_wf s b, hexec, by
    rw [hdone, comparesChecksum, decide_eq_true_iff]⟩

/-- Settles O17: the specific row of `AwaitingChecksum`. -/
theorem chkPassDispatchesTheFrame : Obligations.ChkPassDispatchesTheFrame := by
  intro s b h hb
  subst hb
  have hsel : byteOperation s s.acc = .chkPass s.acc := byteOperation_pass s h
  refine ⟨hsel, ?_, rfl⟩
  rw [exec_of_selected hsel, decByte_pass s h]
  rfl

/-! ### What one step of the Decoder writes -/

/-- What the byte-steps and the dispatch do as operations, whatever the state: two latch, two dispatch, the others move `ps`
only. -/
theorem exec_decoderStep_cases {i : Instr} {s t : State} (hstep : decoderStep i = true) (h : exec i s = .next t) :
    (∃ b, i = .cmdLatch b ∧ t = latchCommand b s) ∨ (∃ b, i = .valLatch b ∧ t = latchValue b s) ∨
    (∃ b, i = .chkPass b ∧ t = acceptFrame s) ∨ (i = .decDispatch ∧ t = dispatch ⟨s.cmd, s.val⟩ s) ∨
    (i ≠ .decDispatch ∧ ∃ p, t = setPs p s) := by
  cases i with
  | cmdLatch b => cases h; exact .inl ⟨b, rfl, rfl⟩
  | valLatch b => cases h; exact .inr (.inl ⟨b, rfl, rfl⟩)
  | chkPass b => cases h; exact .inr (.inr (.inl ⟨b, rfl, rfl⟩))
  | decDispatch => cases h; exact .inr (.inr (.inr (.inl ⟨rfl, rfl⟩)))
  | idleH1 | idleSkip b | h1H2 | h1Resync b | chkFail b =>
    cases h; exact .inr (.inr (.inr (.inr ⟨by simp, _, rfl⟩)))
  | decFeed | encSend c v | encB0 | encB1 | encB2 c | encB3 v | encB4 c v | reset => nomatch hstep

/-- Settles O22: each of the writes of these operations leaves the fields it does not name. -/
theorem decoderStepFrame : Obligations.DecoderStepFrame := by
  intro i s t hstep h
  obtain ⟨b, rfl, rfl⟩ | ⟨b, rfl, rfl⟩ | ⟨b, rfl, rfl⟩ | ⟨rfl, rfl⟩ | ⟨hi, p, rfl⟩ := exec_decoderStep_cases hstep h
  · simp [SameEncoder]
  · simp [SameEncoder]
  · simp [SameEncoder]
  · simp [SameEncoder]
  · simp [SameEncoder, hi]

/-- A byte-step hands over the latched packet when it compares equal, and else nothing (R77, R95). -/
theorem decByte_dispatched (s : State) (b : Byte) :
    (decByte s b).dispatched = s.dispatched ++
      (if s.ps = .awaitingChecksum ∧ b = s.acc then [⟨s.cmd, s.val⟩] else []) := by
  by_cases hps : s.ps = .awaitingChecksum
  · by_cases hb : b = s.acc
    · rw [hb, decByte_pass s hps, if_pos ⟨hps, rfl⟩, acceptFrame_dispatched]
    · rw [decByte_fail s b hps hb, if_neg fun h => hb h.2, setPs_dispatched, List.append_nil]
  · rw [if_neg fun h => hps h.1, List.append_nil]
    obtain ⟨p, -, -, h⟩ | ⟨-, h⟩ | ⟨-, h⟩ | ⟨h, -, -⟩ := decByte_cases s b
    · rw [h, setPs_dispatched]
    · rw [h, latchCommand_dispatched]
    · rw [h, latchValue_dispatched]
    · exact absurd h hps

theorem decByte_dispatched_of_not_compared (s : State) (b : Byte) (h : s.ps ≠ .awaitingChecksum) :
    (decByte s b).dispatched = s.dispatched := by
  rw [decByte_dispatched, if_neg fun hand => h hand.1, List.append_nil]

/-- The accumulator is the command once the command is latched, and the checksum once the value is (R15). -/
theorem accInv_decByte {s : State} (h : AccInv s) (b : Byte) : AccInv (decByte s b) := by
  obtain ⟨p, hcmd, hacc, hd⟩ | ⟨-, hd⟩ | ⟨hps, hd⟩ | ⟨-, -, hd⟩ := decByte_cases s b <;> rw [hd]
  · exact ⟨fun hp => absurd hp hcmd, fun hp => absurd hp hacc⟩
  · exact ⟨fun _ => rfl, nofun⟩
  · exact ⟨nofun, fun _ => by rw [latchValue_acc, h.1 hps]; rfl⟩
  · exact ⟨nofun, nofun⟩

theorem accInv_consume {s : State} (h : AccInv s) (B : List Byte) : AccInv (consume B s) := by
  induction B generalizing s with
  | nil => exact h
  | cons b B ih => exact ih (accInv_decByte h b)

theorem accInv_of_idle {s : State} (h : s.ps = .idle) : AccInv s :=
  ⟨fun hcmd => by simp [h] at hcmd, fun hacc => by simp [h] at hacc⟩

/-! ### The open frame attempt -/

/-- The bytes of the frame attempt that is open, as `ps` and the registers hold them (R11, R13, R14). -/
def openAttempt (s : State) : List Byte :=
  match s.ps with
  | .idle => []
  | .sawHeader1 => [Config.header1]
  | .sawHeader2 => [Config.header1, Config.header2]
  | .sawCmd => [Config.header1, Config.header2, s.cmd]
  | .awaitingChecksum => [Config.header1, Config.header2, s.cmd, s.val]

theorem openAttempt_of_idle {s : State} (h : s.ps = .idle) : openAttempt s = [] := by rw [openAttempt, h]

theorem openAttempt_of_awaitingChecksum {s : State} (h : s.ps = .awaitingChecksum) :
    openAttempt s = [Config.header1, Config.header2, s.cmd, s.val] := by rw [openAttempt, h]

theorem openAttempt_length_le (s : State) : (openAttempt s).length ≤ 4 := by
  unfold openAttempt
  cases s.ps <;> simp

theorem openAttempt_eq_nil_iff (s : State) : openAttempt s = [] ↔ s.ps = .idle := by
  unfold openAttempt
  cases s.ps <;> simp

/-- A byte either ends the attempt, or is its next byte. -/
theorem openAttempt_decByte (s : State) (b : Byte) :
    (decByte s b).ps = .idle ∨ openAttempt (decByte s b) = openAttempt s ++ [b] := by
  cases h : s.ps with
  | idle =>
    by_cases hb : b = Config.header1
    · right; subst hb; rw [decByte_idle_header s h]; simp [openAttempt, h]
    · left; rw [decByte_idle_other s b h hb, h]
  | sawHeader1 =>
    by_cases hb : b = Config.header2
    · right; subst hb; rw [decByte_sawHeader1_header s h]; simp [openAttempt, h]
    · left; rw [decByte_sawHeader1_other s b h hb, setPs_ps]
  | sawHeader2 => right; rw [decByte_sawHeader2 s b h]; simp [openAttempt, h]
  | sawCmd => right; rw [decByte_sawCmd s b h]; simp [openAttempt, h]
  | awaitingChecksum => left; exact decByte_ps_awaitingChecksum s b h

theorem openAttempt_decByte_length_le (s : State) (b : Byte) :
    (openAttempt (decByte s b)).length ≤ (openAttempt s).length + 1 := by
  obtain hidle | hnext := openAttempt_decByte s b
  · rw [openAttempt_of_idle hidle]; exact Nat.zero_le _
  · rw [hnext, List.length_append, List.length_singleton]

/-- Bytes that do not complete a fifth byte of an attempt dispatch nothing. -/
theorem consume_dispatched_of_short {s : State} {B : List Byte} (h : (openAttempt s).length + B.length ≤ 4) :
    (consume B s).dispatched = s.dispatched := by
  induction B generalizing s with
  | nil => rfl
  | cons b B ih =>
    rw [List.length_cons] at h
    have hps : s.ps ≠ .awaitingChecksum := fun hps => by
      have hfour : (openAttempt s).length = 4 := congrArg List.length (openAttempt_of_awaitingChecksum hps)
      omega
    have hnext := openAttempt_decByte_length_le s b
    rw [consume_cons, ih (by omega), decByte_dispatched_of_not_compared s b hps]

theorem consume_dispatched_of_idle {s : State} {B : List Byte} (h : s.ps = .idle) (hB : B.length ≤ 4) :
    (consume B s).dispatched = s.dispatched :=
  consume_dispatched_of_short (by rw [openAttempt_of_idle h]; simpa using hB)

/-- An attempt that would outgrow four bytes has ended on the way. -/
theorem exists_idle_of_long {s : State} {B : List Byte} (h : 4 < (openAttempt s).length + B.length) :
    ∃ k ≤ B.length, (consume (B.take k) s).ps = .idle := by
  induction B generalizing s with
  | nil => exact absurd h (by simpa using openAttempt_length_le s)
  | cons b B ih =>
    obtain hidle | hnext := openAttempt_decByte s b
    · exact ⟨1, Nat.succ_le_succ (Nat.zero_le _), hidle⟩
    · obtain ⟨k, hk, hps⟩ := ih (s := decByte s b) (by
        rw [hnext, List.length_append, List.length_singleton]
        rw [List.length_cons] at h
        omega)
      exact ⟨k + 1, Nat.succ_le_succ hk, hps⟩

/-- Settles O21: outside `Idle` at least one byte of the attempt is read, so four more are too many for it. -/
theorem fourBytesBringTheDecoderToIdle : Obligations.FourBytesBringTheDecoderToIdle := by
  intro s B hlen
  by_cases h : s.ps = .idle
  · exact ⟨0, Nat.zero_le _, h⟩
  · have hopen : 0 < (openAttempt s).length := List.length_pos_iff.mpr fun hnil => h ((openAttempt_eq_nil_iff s).mp hnil)
    rw [← hlen]
    exact exists_idle_of_long (by omega)

/-- Whatever was read from `Idle` on ends in the bytes of the open attempt, and the attempt began in `Idle`. -/
theorem exists_openAttempt_suffix {s : State} (h : s.ps = .idle) (B : List Byte) :
    ∃ pre, B = pre ++ openAttempt (consume B s) ∧ (consume pre s).ps = .idle := by
  induction B using List.reverseRecOn with
  | nil => exact ⟨[], by rw [consume_nil, openAttempt_of_idle h]; rfl, h⟩
  | append_singleton B b ih =>
    have hlast : consume (B ++ [b]) s = decByte (consume B s) b := consume_append B [b] s
    obtain hidle | hnext := openAttempt_decByte (consume B s) b
    · exact ⟨B ++ [b], by rw [hlast, openAttempt_of_idle hidle, List.append_nil], by rw [hlast, hidle]⟩
    · obtain ⟨pre, hB, hpre⟩ := ih
      exact ⟨pre, by rw [hlast, hnext, ← List.append_assoc, ← hB], hpre⟩

/-! ### Dispatches and frames -/

theorem frameBytes_eq_append (c v : Byte) :
    frameBytes c v = [Config.header1, Config.header2, c, v] ++ [checksum c v] := rfl

/-- Settles O30: a dispatch compares the fifth byte of the open attempt with the sum of its third and fourth; and the first four
bytes of a frame met in `Idle` dispatch nothing, the fifth its packet. -/
theorem dispatchExactlyOnAFrameMetInIdle : Obligations.DispatchExactlyOnAFrameMetInIdle := by
  intro s B b c v hs
  constructor
  · intro h
    obtain ⟨pre, hB, hpre⟩ := exists_openAttempt_suffix hs B
    rw [consume_append, consume_cons, consume_nil, decByte_dispatched, List.append_cancel_left_eq] at h
    split at h
    case isTrue hpass =>
      obtain ⟨hps, rfl⟩ := hpass
      obtain ⟨rfl, rfl⟩ := Packet.mk.inj (List.head_eq_of_cons_eq h)
      obtain ⟨-, hacc⟩ := accInv_consume (accInv_of_idle hs) B
      rw [openAttempt_of_awaitingChecksum hps] at hB
      refine ⟨pre, ?_, hpre⟩
      rw [frameBytes_eq_append, ← hacc hps, ← List.append_assoc, ← hB]
    case isFalse => nomatch h
  · rintro ⟨pre, hsplit, hpre⟩
    have hfour : (consume B s).dispatched = (consume pre s).dispatched := by
      rw [frameBytes_eq_append, ← List.append_assoc] at hsplit
      rw [(List.append_inj' hsplit rfl).1, consume_append]
      exact consume_dispatched_of_idle hpre le_rfl
    rw [hsplit, consume_append, consume_frame hpre, hfour]

/-- Five bytes with a good header and a checksum that is not the sum fail the comparison (R78). -/
theorem consume_bad_checksum {s : State} (h : s.ps = .idle) {c v k : Byte} (hk : k ≠ checksum c v) :
    (consume [Config.header1, Config.header2, c, v, k] s).dispatched = s.dispatched ∧
    (consume [Config.header1, Config.header2, c, v, k] s).ps = .idle := by
  have hlatched : consume [Config.header1, Config.header2, c, v] s = latchValue v (latchCommand c s) := by
    rw [consume_cons, decByte_idle_header s h, consume_cons, decByte_sawHeader1_header _ rfl, consume_cons,
      decByte_sawHeader2 _ c rfl, consume_cons, decByte_sawCmd _ v rfl]
    rfl
  have hfive : consume [Config.header1, Config.header2, c, v, k] s = setPs .idle (latchValue v (latchCommand c s)) := by
    rw [← decByte_fail (latchValue v (latchCommand c s)) k rfl hk, ← hlatched]
    rfl
  rw [hfive]
  exact ⟨rfl, rfl⟩

/-- Five bytes that do not begin with the header dispatch nothing: the attempt ends after its first or second byte. -/
theorem consume_bad_header {s : State} (h : s.ps = .idle) {b0 b1 b2 b3 b4 : Byte}
    (hheader : b0 ≠ Config.header1 ∨ b0 = Config.header1 ∧ b1 ≠ Config.header2) :
    (consume [b0, b1, b2, b3, b4] s).dispatched = s.dispatched := by
  obtain hb | ⟨rfl, hb⟩ := hheader
  · rw [consume_cons, decByte_idle_other s b0 h hb]
    exact consume_dispatched_of_idle h le_rfl
  · have hback : setPs .idle (setPs .sawHeader1 s) = s := setPs_of_eq s .idle h
    rw [consume_cons, decByte_idle_header s h, consume_cons, decByte_sawHeader1_other _ b1 rfl hb, hback]
    exact consume_dispatched_of_idle h (by simp)

theorem xor_ne_self {n : Nat} {a m : BitVec n} (hm : m ≠ 0) : a ^^^ m ≠ a := fun h =>
  hm ((BitVec.xor_right_inj a).mp (h.trans BitVec.xor_zero.symm))

/-- A changed operand changes the checksum (R64). -/
theorem checksum_left_injective {c c' v : Byte} (h : checksum c v = checksum c' v) : c = c' :=
  (BitVec.add_left_inj v).mp h

theorem checksum_right_injective {c v v' : Byte} (h : checksum c v = checksum c v') : v = v' :=
  (BitVec.add_right_inj c).mp h

/-- Settles O33: a flip in bytes 2 to 4 leaves a checksum that is not the sum, a flip in bytes 0 or 1 no header. -/
theorem singleBitFlipIsNeverDispatched : Obligations.SingleBitFlipIsNeverDispatched := by
  intro s c v i hs hi flip k
  have hflip : flip ≠ 0 := by
    simp only [flip]
    interval_cases i <;> decide
  refine ⟨fun B hB => ?_, fun B hB => ?_⟩
  · simp only [List.mem_cons, List.not_mem_nil, or_false] at hB
    obtain rfl | rfl | rfl := hB
    · exact consume_bad_checksum hs fun h => xor_ne_self hflip (checksum_left_injective h).symm
    · exact consume_bad_checksum hs fun h => xor_ne_self hflip (checksum_right_injective h).symm
    · exact consume_bad_checksum hs (xor_ne_self hflip)
  · simp only [List.mem_cons, List.not_mem_nil, or_false] at hB
    obtain rfl | rfl := hB
    · exact consume_bad_header hs (.inl (xor_ne_self hflip))
    · exact consume_bad_header hs (.inr ⟨rfl, xor_ne_self hflip⟩)

/-! ### Runs of `HEADER_1` -/

/-- `HEADER_1` toggles between `Idle` and `SawHeader1` (R72, R74): an even run leaves the state, an odd one an open attempt. -/
theorem consume_replicate_header1 {s : State} (h : s.ps = .idle) (n : Nat) :
    consume (List.replicate n Config.header1) s = if n % 2 = 0 then s else setPs .sawHeader1 s := by
  induction n with
  | zero => rfl
  | succ n ih =>
    rw [List.replicate_succ', consume_append, ih, consume_cons, consume_nil]
    by_cases hn : n % 2 = 0
    · rw [if_pos hn, if_neg (by omega), decByte_idle_header s h]
    · rw [if_neg hn, if_pos (by omega), decByte_sawHeader1_other _ _ rfl (by decide)]
      exact setPs_of_eq s .idle h

/-- In `SawHeader1` the first two bytes of a frame are spent on the return to `Idle`, and three bytes make no frame. -/
theorem consume_frame_sawHeader1 {s : State} (h : s.ps = .idle) (c v : Byte) :
    (consume (frameBytes c v) (setPs .sawHeader1 s)).dispatched = s.dispatched := by
  have hback : setPs .idle (setPs .sawHeader1 s) = s := setPs_of_eq s .idle h
  rw [frameBytes, consume_cons, decByte_sawHeader1_other _ _ rfl (by decide), hback]
  exact consume_dispatched_of_idle h le_rfl

/-- Settles O35: by the parity of the run, the frame is met in `Idle` or in `SawHeader1`. -/
theorem oddRunOfHeaderBytesLosesTheFrame : Obligations.OddRunOfHeaderBytesLosesTheFrame := by
  intro s n c v hs
  show (consume (List.replicate n Config.header1 ++ frameBytes c v) s).dispatched = _
  rw [consume_append, consume_replicate_header1 hs]
  by_cases hn : n % 2 = 0
  · rw [if_pos hn, if_pos hn, consume_frame hs]
  · rw [if_neg hn, if_neg hn, consume_frame_sawHeader1 hs, List.append_nil]

/-! ### The dispatch and its consumer -/

theorem respond_of_no_dispatch {s t : State} (k : Consumer) (h : t.dispatched = s.dispatched) : k.respond s t = t :=
  if_pos h

theorem respond_of_dispatch {s t : State} (k : Consumer) {p : Packet} (h : t.dispatched = s.dispatched ++ [p]) :
    k.respond s t =
      setEnv ((k.sends (s.dispatched ++ [p])).map (sendRequest (atPorts s)) ++ t.env) t := by
  rw [Consumer.respond, if_neg (by simp [h]), h]

/-- A step with a consumer is the step, then the consumer's response. -/
theorem stepWith_of_step {s t : State} (k : Consumer) (h : step s = .next t) : stepWith k s = .next (k.respond s t) := by
  rw [step_eq_runNext] at h
  rw [stepWith, h, andThen_next]

/-- Settles O23: the consumer is called when the dispatch stream has grown. -/
theorem dispatchHandsOverTheLatchedPacket : Obligations.DispatchHandsOverTheLatchedPacket := by
  refine ⟨fun s => rfl, decByte_dispatched, fun k s t h => ⟨fun hd => ?_, fun p hd => ?_⟩⟩
  · rw [stepWith_of_step k h, respond_of_no_dispatch k hd]
  · rw [stepWith_of_step k h, respond_of_dispatch k hd]

end Sys2Proof.Machine
end

section
/-! PROOFS. Invocations as folds of byte-steps (R91 to R93, R103): what a fold of byte-steps writes, what it depends on, and
how often one attempt dispatches; and the Encoder's operations at the transaction level (R105, R114). -/

namespace Sys2Proof.Machine

open Sys2Proof.Safety

/-! ### What a fold of byte-steps writes and reads -/

/-- A byte-step writes the Decoder's four registers and the dispatch stream, nothing else (R81). -/
theorem decByte_writes (s : State) (b : Byte) :
    decByte s b = { s with ps := (decByte s b).ps, cmd := (decByte s b).cmd, val := (decByte s b).val,
                           acc := (decByte s b).acc, dispatched := (decByte s b).dispatched } := by
  obtain ⟨p, -, -, h⟩ | ⟨-, h⟩ | ⟨-, h⟩ | ⟨-, -, h⟩ := decByte_cases s b <;> rw [h] <;> rfl

theorem consume_writes (B : List Byte) (s : State) :
    consume B s = { s with ps := (consume B s).ps, cmd := (consume B s).cmd, val := (consume B s).val,
                           acc := (consume B s).acc, dispatched := (consume B s).dispatched } := by
  induction B generalizing s with
  | nil => rfl
  | cons b B ih => rw [consume_cons, ih (decByte s b), decByte_writes s b]

theorem consume_setEnv (B : List Byte) (l : List Stimulus) (s : State) :
    consume B (setEnv l s) = setEnv l (consume B s) := by
  induction B generalizing s with
  | nil => rfl
  | cons b B ih => rw [consume_cons, decByte_setEnv, ih, consume_cons]

theorem sameEncoder_consume (B : List Byte) (s : State) : SameEncoder s (consume B s) := by
  rw [consume_writes]
  exact ⟨rfl, rfl, rfl, rfl, rfl⟩

theorem decByte_dispatched_grows (s : State) (b : Byte) : s.dispatched <+: (decByte s b).dispatched := by
  rw [decByte_dispatched]
  exact List.prefix_append ..

theorem consume_dispatched_grows (B : List Byte) (s : State) : s.dispatched <+: (consume B s).dispatched := by
  induction B generalizing s with
  | nil => exact List.prefix_rfl
  | cons b B ih => exact (decByte_dispatched_grows s b).trans (ih (decByte s b))

theorem sameRegisters_refl (s : State) : SameRegisters s s := ⟨rfl, rfl, rfl, rfl, rfl⟩

theorem sameRegisters_trans {s t u : State} (h : SameRegisters s t) (g : SameRegisters t u) : SameRegisters s u := by
  obtain ⟨hps, hcmd, hval, hacc, hd⟩ := h
  obtain ⟨gps, gcmd, gval, gacc, gd⟩ := g
  exact ⟨hps.trans gps, hcmd.trans gcmd, hval.trans gval, hacc.trans gacc, hd.trans gd⟩

/-- What a byte-step does to the registers and the dispatch stream depends on them and the byte only (R70). -/
theorem sameRegisters_decByte {s t : State} (h : SameRegisters s t) (b : Byte) :
    SameRegisters (decByte s b) (decByte t b) := by
  obtain ⟨hps, hcmd, hval, hacc, hd⟩ := h
  cases ht : t.ps with
  | idle =>
    by_cases hb : b = Config.header1
    · subst hb; rw [decByte_idle_header s (hps.trans ht), decByte_idle_header t ht]; exact ⟨rfl, hcmd, hval, hacc, hd⟩
    · rw [decByte_idle_other s b (hps.trans ht) hb, decByte_idle_other t b ht hb]; exact ⟨hps, hcmd, hval, hacc, hd⟩
  | sawHeader1 =>
    by_cases hb : b = Config.header2
    · subst hb
      rw [decByte_sawHeader1_header s (hps.trans ht), decByte_sawHeader1_header t ht]
      exact ⟨rfl, hcmd, hval, hacc, hd⟩
    · rw [decByte_sawHeader1_other s b (hps.trans ht) hb, decByte_sawHeader1_other t b ht hb]
      exact ⟨rfl, hcmd, hval, hacc, hd⟩
  | sawHeader2 =>
    rw [decByte_sawHeader2 s b (hps.trans ht), decByte_sawHeader2 t b ht]
    exact ⟨rfl, rfl, hval, rfl, hd⟩
  | sawCmd =>
    rw [decByte_sawCmd s b (hps.trans ht), decByte_sawCmd t b ht]
    exact ⟨rfl, hcmd, rfl, congrArg (addMod256 · b) hacc, hd⟩
  | awaitingChecksum =>
    by_cases hb : b = t.acc
    · subst hb
      rw [decByte_pass t ht, ← hacc, decByte_pass s (hps.trans ht)]
      exact ⟨rfl, hcmd, hval, hacc, by rw [acceptFrame_dispatched, acceptFrame_dispatched, hd, hcmd, hval]⟩
    · rw [decByte_fail t b ht hb, decByte_fail s b (hps.trans ht) (hacc ▸ hb)]
      exact ⟨rfl, hcmd, hval, hacc, hd⟩

theorem sameRegisters_consume {s t : State} (h : SameRegisters s t) (B : List Byte) :
    SameRegisters (consume B s) (consume B t) := by
  induction B generalizing s t with
  | nil => exact h
  | cons b B ih => exact ih (sameRegisters_decByte h b)

/-- Bytes consumed in two goes are consumed in one. -/
theorem sameRegisters_consume_append {s t u : State} {A B : List Byte} (ht : SameRegisters t (consume A s))
    (hu : SameRegisters u (consume B t)) : SameRegisters u (consume (A ++ B) s) := by
  rw [consume_append]
  exact sameRegisters_trans hu (sameRegisters_consume ht B)

/-! ### What one attempt dispatches -/

/-- An attempt has at most one comparison, and it is in `Idle` after it. -/
theorem consume_dispatched_of_oneAttempt {s : State} {B : List Byte} (h : OneAttempt s B) :
    (consume B s).dispatched = s.dispatched ∨
    ∃ p, (consume B s).dispatched = s.dispatched ++ [p] ∧ (consume B s).ps = .idle := by
  induction B generalizing s with
  | nil => exact .inl rfl
  | cons b B ih =>
    obtain ⟨hlast, hone⟩ := (oneAttempt_cons s b B).mp h
    by_cases hps : s.ps = .awaitingChecksum
    · obtain rfl := hlast hps
      rw [consume_cons, consume_nil, decByte_dispatched]
      by_cases hb : b = s.acc
      · exact .inr ⟨⟨s.cmd, s.val⟩, by rw [if_pos ⟨hps, hb⟩], decByte_ps_awaitingChecksum s b hps⟩
      · exact .inl (by rw [if_neg fun hand => hb hand.2, List.append_nil])
    · have hfirst := decByte_dispatched_of_not_compared s b hps
      rw [consume_cons, ← hfirst]
      exact ih hone

theorem consume_ps_of_endsCompared {s : State} {B : List Byte} (h : EndsCompared s B) : (consume B s).ps = .idle := by
  obtain ⟨pre, b, rfl, hcompared⟩ := h
  rw [consume_append]
  exact decByte_ps_awaitingChecksum _ b hcompared

/-! ### The loop of `feed` -/

/-- What the loop does, whatever the limit: it consumes bytes of RX, one attempt, as far as it may. -/
theorem feedRun_consumes (n : Nat) (s : State) :
    ∃ B rest, s.rx = B ++ rest ∧ feedRun n s = setRx rest (consume B s) ∧ B.length ≤ n ∧ OneAttempt s B ∧
      (B.length = n ∨ rest = [] ∨ EndsCompared s B) := by
  obtain ⟨B, rest, hrx, hlen, hone, hend⟩ := exists_invocation_prefix n s.rx s
  have hrun := feedRun_eq_consume hlen hone hend
  rw [← hrx, setRx_self] at hrun
  exact ⟨B, rest, hrx, hrun, hlen, hone, hend⟩

/-- Settles O25: the loop with the limit `n`; using up the statement does not change what it consumes. -/
theorem limitedFeedConsumesAtMostItsLimit : Obligations.LimitedFeedConsumesAtMostItsLimit := by
  intro s n more hactive henv
  obtain ⟨B, rest, hrx, hrun, hlen, hone, hend⟩ := feedRun_consumes n s
  refine ⟨B, rest, hrx, ?_, hlen, hone, hend⟩
  have hinvoke : invoke n s = .next (setRx rest (consume B s)) := invoke_eq_next.mpr ⟨hactive, hrun⟩
  rw [step_stimulus s _ more henv, runStimulus, invoke_setEnv, hinvoke, replaceEnv_next, consume_setEnv, consume_setRx]

/-- Settles O26: what is consumed is one attempt; bytes are left only after its comparison. -/
theorem atMostOneDispatchPerInvocation : Obligations.AtMostOneDispatchPerInvocation := by
  intro s hactive
  obtain ⟨⟨B, rest, hrx, hexec, hone, hend⟩, -⟩ := invocationEndsInExactlyTwoWays s hactive
  rw [consume_setRx] at hexec
  refine ⟨_, hexec, consume_dispatched_of_oneAttempt hone, fun hleft => ?_⟩
  exact consume_ps_of_endsCompared (hend.resolve_left hleft)

/-- Settles O27: an invocation is a fold of byte-steps over bytes taken from the head of RX. -/
theorem feedFrame : Obligations.FeedFrame := by
  intro s t h
  obtain ⟨hactive, hrun⟩ := invoke_eq_next.mp h
  obtain ⟨B, rest, hrx, hfold, -⟩ := feedRun_consumes s.rx.length s
  rw [← hrun, hfold]
  refine ⟨sameEncoder_consume B s, consume_decActive B s, ?_, ⟨B, hrx.symm⟩, consume_dispatched_grows B s⟩
  rw [setRx_env, consume_writes]

/-! ### Sends -/

theorem exec_encSend_of_encBusy {s : State} (h : s.encBusy = true) (c v : Byte) :
    exec (.encSend c v) s = .next s := by
  rw [exec, execEncSend, if_pos h]

/-- Settles O37: the five writes, of which the last is the wrapped sum. -/
theorem sendAppendsTheFrame : Obligations.SendAppendsTheFrame :=
  fun _ c v h => exec_encSend_appends_frame h c v

/-- Settles O38: the guards of `DEC.FEED` and of `ENC.SEND`. -/
theorem requestsWhileBusyDoNothing : Obligations.RequestsWhileBusyDoNothing :=
  fun _ c v => ⟨fun h => if_pos h, fun h => exec_encSend_of_encBusy h c v⟩

/-- The Encoder's operations append to TX, an ignored send nothing. -/
theorem exec_encoderOperation_appends {i : Instr} {s t : State} (hop : encoderOperation i = true)
    (h : exec i s = .next t) : ∃ w, t = { s with tx := s.tx ++ w } := by
  cases i with
  | encB0 | encB1 | encB2 c | encB3 v | encB4 c v => cases h; exact ⟨_, rfl⟩
  | encSend c v =>
    by_cases hbusy : s.encBusy = true
    · cases (exec_encSend_of_encBusy hbusy c v).symm.trans h
      exact ⟨[], by rw [List.append_nil]⟩
    · cases (exec_encSend_appends_frame (eq_false_of_ne_true hbusy) c v).symm.trans h
      exact ⟨_, rfl⟩
  | idleH1 | idleSkip b | h1H2 | h1Resync b | cmdLatch b | valLatch b | chkPass b | chkFail b | decFeed | decDispatch
  | reset => nomatch hop

/-- Settles O39: what an append leaves. -/
theorem encoderFrame : Obligations.EncoderFrame := by
  intro i s t hop h
  obtain ⟨w, rfl⟩ := exec_encoderOperation_appends hop h
  exact ⟨rfl, List.prefix_append ..⟩

/-- Settles O31: the send fills TX with one frame, `LOOP` makes it all of RX, and the invocation takes it from there. -/
theorem sendLoopFeedDispatchesTheSamePair : Obligations.SendLoopFeedDispatchesTheSamePair := by
  intro s c v hactive hbusy hps hrx htx henv
  have hsend : step s = .next { s with tx := s.tx ++ frameBytes c v, env := [.loop, .feed none] } := by
    rw [step_stimulus s _ _ henv]
    exact exec_encSend_appends_frame (s := setEnv [.loop, .feed none] s) hbusy c v
  have hloop : step { s with tx := s.tx ++ frameBytes c v, env := [.loop, .feed none] } =
      .next { s with rx := s.rx ++ (s.tx ++ frameBytes c v), tx := [], env := [.feed none] } := by
    rw [step_stimulus _ _ _ rfl]
    rfl
  have hfeed : step { s with rx := s.rx ++ (s.tx ++ frameBytes c v), tx := [], env := [.feed none] } = .next { s with
      cmd := c, val := v, acc := checksum c v, dispatched := s.dispatched ++ [⟨c, v⟩], env := [] } := by
    rw [hrx, htx, step_stimulus _ _ _ rfl]
    exact exec_decFeed_noise_frame (noise := []) (rest := []) hactive hps List.not_mem_nil rfl
  rw [runSteps, hsend, andThen_next, runSteps, hloop, andThen_next, runSteps, hfeed, andThen_next, runSteps]

end Sys2Proof.Machine
end

section
/-! PROOFS. The port binding of 43_port_binding.md (R124 to R141). A cycle always has a next state (`cycleAfter`); without reset
the Decoder in it is what `decoderAfter` leaves and the Encoder what `encoderAfter` leaves, and each depends on its own part of
the state only. So a run of cycles is, for the Decoder, a fold over the bytes popped, and for the Encoder the rest of a frame. -/

namespace Sys2Proof.Machine

open Sys2Proof.Safety

/-! ### One cycle as a function of the state -/

/-- What a clock cycle leaves (R138, R139). -/
def cycleAfter (p : Ports) (s : State) : State :=
  if p.rst then resetRegisters (present p s) else encoderAfter p (decoderAfter p (present p s))

theorem cycle_eq_cycleAfter (p : Ports) (s : State) : cycle p s = .next (cycleAfter p s) := by
  cases h : p.rst with
  | true => rw [cycle_reset p s h, cycleAfter, if_pos h]
  | false => rw [cycle_next p s h, cycleAfter, if_neg (Bool.not_eq_true _ ▸ h)]

theorem cycleAfter_reset {p : Ports} (s : State) (h : p.rst = true) : cycleAfter p s = resetRegisters (present p s) :=
  if_pos h

theorem cycleAfter_run {p : Ports} (s : State) (h : p.rst = false) :
    cycleAfter p s = encoderAfter p (decoderAfter p (present p s)) := by
  rw [cycleAfter, h, if_neg Bool.false_ne_true]

/-! ### The two agents' views -/

theorem sameEncoder_symm {s t : State} (h : SameEncoder s t) : SameEncoder t s := by
  obtain ⟨hbusy, hidx, hcmd, hval, htx⟩ := h
  exact ⟨hbusy.symm, hidx.symm, hcmd.symm, hval.symm, htx.symm⟩

theorem sameEncoder_trans {s t u : State} (h : SameEncoder s t) (g : SameEncoder t u) : SameEncoder s u := by
  obtain ⟨hbusy, hidx, hcmd, hval, htx⟩ := h
  obtain ⟨gbusy, gidx, gcmd, gval, gtx⟩ := g
  exact ⟨hbusy.trans gbusy, hidx.trans gidx, hcmd.trans gcmd, hval.trans gval, htx.trans gtx⟩

theorem sameDecoder_symm {s t : State} (h : SameDecoder s t) : SameDecoder t s := by
  obtain ⟨hps, hcmd, hval, hacc, hactive, hrx, hd⟩ := h
  exact ⟨hps.symm, hcmd.symm, hval.symm, hacc.symm, hactive.symm, hrx.symm, hd.symm⟩

theorem sameDecoder_trans {s t u : State} (h : SameDecoder s t) (g : SameDecoder t u) : SameDecoder s u := by
  obtain ⟨hps, hcmd, hval, hacc, hactive, hrx, hd⟩ := h
  obtain ⟨gps, gcmd, gval, gacc, gactive, grx, gd⟩ := g
  exact ⟨hps.trans gps, hcmd.trans gcmd, hval.trans gval, hacc.trans gacc, hactive.trans gactive, hrx.trans grx,
    hd.trans gd⟩

/-- The Decoder's view is its registers with the dispatch stream, the RX stream and the invocation bit. -/
theorem sameDecoder_iff (s t : State) :
    SameDecoder s t ↔ SameRegisters s t ∧ s.rx = t.rx ∧ s.decActive = t.decActive := by
  constructor
  · rintro ⟨hps, hcmd, hval, hacc, hactive, hrx, hd⟩; exact ⟨⟨hps, hcmd, hval, hacc, hd⟩, hrx, hactive⟩
  · rintro ⟨⟨hps, hcmd, hval, hacc, hd⟩, hrx, hactive⟩; exact ⟨hps, hcmd, hval, hacc, hactive, hrx, hd⟩

theorem sameEncoder_advanceSend {s t : State} (h : SameEncoder s t) : SameEncoder (advanceSend s) (advanceSend t) := by
  obtain ⟨hbusy, hidx, hcmd, hval, htx⟩ := h
  by_cases hlast : t.encIdx = 4
  · rw [advanceSend_last t hlast, advanceSend_last s (hidx.trans hlast)]
    exact ⟨rfl, rfl, hcmd, hval, htx⟩
  · rw [advanceSend_more t hlast, advanceSend_more s (hidx ▸ hlast)]
    exact ⟨hbusy, congrArg (· + 1) hidx, hcmd, hval, htx⟩

/-- The Encoder's part of a cycle depends on the Encoder and its ports only (R139). -/
theorem encoderAfter_congr {p q : Ports} {s t : State} (hstart : p.txStart = q.txStart) (hc : p.txCmd = q.txCmd)
    (hv : p.txValue = q.txValue) (h : SameEncoder s t) : SameEncoder (encoderAfter p s) (encoderAfter q t) := by
  obtain ⟨hbusy, hidx, hcmd, hval, htx⟩ := id h
  by_cases ht : t.encBusy = true
  · rw [encoderAfter_busy q t ht, encoderAfter_busy p s (hbusy.trans ht)]
    refine sameEncoder_advanceSend ⟨hbusy, hidx, hcmd, hval, ?_⟩
    rw [txWrite_tx, txWrite_tx, htx, hidx, hcmd, hval]
  · have ht := eq_false_of_ne_true ht
    by_cases hq : q.txStart = true
    · rw [encoderAfter_start q t ht hq, encoderAfter_start p s (hbusy.trans ht) (hstart.trans hq), hc, hv]
      exact ⟨rfl, rfl, rfl, rfl, htx⟩
    · have hq := eq_false_of_ne_true hq
      rw [encoderAfter_idle q t ht hq, encoderAfter_idle p s (hbusy.trans ht) (hstart.trans hq)]
      exact h

/-- The Decoder's part of a cycle depends on the Decoder and its port only (R139). -/
theorem decoderAfter_congr {p q : Ports} {s t : State} (hfeed : p.feed = q.feed) (h : SameDecoder s t) :
    SameDecoder (decoderAfter p s) (decoderAfter q t) := by
  obtain ⟨hregs, hrx, hactive⟩ := (sameDecoder_iff s t).mp h
  by_cases ht : t.decActive = true
  · cases htrx : t.rx with
    | nil =>
      rw [decoderAfter_empty q t ht htrx, decoderAfter_empty p s (hactive.trans ht) (hrx.trans htrx)]
      exact (sameDecoder_iff ..).mpr ⟨hregs, hrx, rfl⟩
    | cons b rest =>
      have hbyte : SameRegisters (decByte (setRx rest s) b) (decByte (setRx rest t) b) :=
        sameRegisters_decByte (s := setRx rest s) (t := setRx rest t) hregs b
      by_cases hps : t.ps = .awaitingChecksum
      · rw [decoderAfter_done q t b rest ht htrx hps,
          decoderAfter_done p s b rest (hactive.trans ht) (hrx.trans htrx) (hregs.1.trans hps)]
        exact (sameDecoder_iff ..).mpr ⟨hbyte, by simp, rfl⟩
      · rw [decoderAfter_more q t b rest ht htrx hps,
          decoderAfter_more p s b rest (hactive.trans ht) (hrx.trans htrx) (hregs.1 ▸ hps)]
        exact (sameDecoder_iff ..).mpr ⟨hbyte, by simp, by simp [hactive]⟩
  · have ht := eq_false_of_ne_true ht
    by_cases hq : q.feed = true
    · rw [decoderAfter_start q t ht hq, decoderAfter_start p s (hactive.trans ht) (hfeed.trans hq)]
      exact (sameDecoder_iff ..).mpr ⟨hregs, hrx, rfl⟩
    · have hq := eq_false_of_ne_true hq
      rw [decoderAfter_idle q t ht hq, decoderAfter_idle p s (hactive.trans ht) (hfeed.trans hq)]
      exact h

theorem cycleAfter_sameDecoder {p : Ports} (s : State) (h : p.rst = false) :
    SameDecoder (cycleAfter p s) (decoderAfter p (present p s)) := by
  rw [cycleAfter_run s h]
  exact (encoderAfter_view p _).1

theorem cycleAfter_sameEncoder {p : Ports} (s : State) (h : p.rst = false) :
    SameEncoder (cycleAfter p s) (encoderAfter p s) := by
  rw [cycleAfter_run s h]
  exact encoderAfter_congr rfl rfl rfl (decoderAfter_view p (present p s)).1

/-! ### The Decoder in a cycle -/

/-- A byte of an invocation: popped, consumed, and the end of the invocation when it was compared (R126). -/
theorem cycleAfter_byte {p : Ports} {s : State} {b : Byte} {rest : List Byte} (hrst : p.rst = false)
    (hactive : s.decActive = true) (hrx : s.rx ++ p.arrivals = b :: rest) :
    SameRegisters (cycleAfter p s) (decByte s b) ∧ (cycleAfter p s).rx = rest ∧
      ((cycleAfter p s).decActive = true ↔ s.ps ≠ .awaitingChecksum) := by
  obtain ⟨hregs, hrxAfter, hactiveAfter⟩ := (sameDecoder_iff ..).mp (cycleAfter_sameDecoder s hrst)
  have hbyte : SameRegisters (decByte (setRx rest (present p s)) b) (decByte s b) :=
    sameRegisters_decByte (s := setRx rest (present p s)) (sameRegisters_refl s) b
  rw [hrxAfter, hactiveAfter]
  by_cases hps : s.ps = .awaitingChecksum
  · have hdone := decoderAfter_done p (present p s) b rest hactive hrx hps
    rw [hdone] at hregs ⊢
    exact ⟨sameRegisters_trans hregs hbyte, by simp, by simp [hps]⟩
  · have hmore := decoderAfter_more p (present p s) b rest hactive hrx hps
    have hstill : (present p s).decActive = true := hactive
    rw [hmore] at hregs ⊢
    exact ⟨sameRegisters_trans hregs hbyte, by simp, by simp [hps, hstill]⟩

/-- An invocation that finds the source empty ends (R125). -/
theorem cycleAfter_empty {p : Ports} {s : State} (hrst : p.rst = false) (hactive : s.decActive = true)
    (hrx : s.rx ++ p.arrivals = []) :
    SameRegisters (cycleAfter p s) s ∧ (cycleAfter p s).rx = [] ∧ (cycleAfter p s).decActive = false := by
  obtain ⟨hregs, hrxAfter, hactiveAfter⟩ := (sameDecoder_iff ..).mp (cycleAfter_sameDecoder s hrst)
  rw [decoderAfter_empty p (present p s) hactive hrx] at hregs hrxAfter hactiveAfter
  exact ⟨hregs, hrxAfter.trans hrx, hactiveAfter⟩

/-- With no invocation in progress a cycle accepts `feed` and consumes nothing (R124). -/
theorem cycleAfter_inactive {p : Ports} {s : State} (hrst : p.rst = false) (hactive : s.decActive = false) :
    SameRegisters (cycleAfter p s) s ∧ (cycleAfter p s).rx = s.rx ++ p.arrivals ∧
      (cycleAfter p s).decActive = p.feed := by
  obtain ⟨hregs, hrxAfter, hactiveAfter⟩ := (sameDecoder_iff ..).mp (cycleAfter_sameDecoder s hrst)
  cases hfeed : p.feed with
  | true =>
    rw [decoderAfter_start p (present p s) hactive hfeed] at hregs hrxAfter hactiveAfter
    exact ⟨hregs, hrxAfter, hactiveAfter⟩
  | false =>
    rw [decoderAfter_idle p (present p s) hactive hfeed] at hregs hrxAfter hactiveAfter
    exact ⟨hregs, hrxAfter, hactiveAfter.trans hactive⟩

/-- Settles O41: the three cases of the Decoder's part. -/
theorem decoderCycleFollowsThePortRules : Obligations.DecoderCycleFollowsThePortRules :=
  fun p s hrst => ⟨cycleAfter p s, cycle_eq_cycleAfter p s, cycleAfter_inactive hrst, cycleAfter_empty hrst,
    fun _ _ => cycleAfter_byte hrst⟩

/-- A cycle without reset consumes at most one byte, and the rest of the stream stays in order. -/
theorem cycleAfter_consumes {p : Ports} (s : State) (hrst : p.rst = false) :
    ∃ B, B.length ≤ 1 ∧ B ++ (cycleAfter p s).rx = s.rx ++ p.arrivals ∧ SameRegisters (cycleAfter p s) (consume B s) := by
  by_cases hactive : s.decActive = true
  · cases hrx : s.rx ++ p.arrivals with
    | nil =>
      obtain ⟨hregs, hrxAfter, -⟩ := cycleAfter_empty hrst hactive hrx
      exact ⟨[], Nat.zero_le _, hrxAfter, hregs⟩
    | cons b rest =>
      obtain ⟨hregs, hrxAfter, -⟩ := cycleAfter_byte hrst hactive hrx
      exact ⟨[b], le_rfl, by rw [hrxAfter, List.singleton_append], hregs⟩
  · obtain ⟨hregs, hrxAfter, -⟩ := cycleAfter_inactive hrst (eq_false_of_ne_true hactive)
    exact ⟨[], Nat.zero_le _, hrxAfter, hregs⟩

/-- Settles O48: one byte at most a cycle, put together over the run. -/
theorem clockedConsumptionIsAFold : Obligations.ClockedConsumptionIsAFold := by
  intro inputs s hrst
  induction inputs generalizing s with
  | nil => exact ⟨s, [], rfl, by simp, sameRegisters_refl s⟩
  | cons p inputs ih =>
    obtain ⟨hp, hrest⟩ := List.forall_mem_cons.mp hrst
    obtain ⟨A, -, hrxA, hregsA⟩ := cycleAfter_consumes s hp
    obtain ⟨t, B, hrun, hrxB, hregsB⟩ := ih (cycleAfter p s) hrest
    refine ⟨t, A ++ B, by rw [runCycles, cycle_eq_cycleAfter, andThen_next, hrun], ?_,
      sameRegisters_consume_append hregsA hregsB⟩
    rw [List.append_assoc, hrxB, ← List.append_assoc, hrxA, List.map_cons, List.flatten_cons, List.append_assoc]

/-! ### The Encoder in a cycle -/

/-- The frame byte at an offset is the frame's (R134). -/
theorem frameBytes_getElem? (idx : Fin 5) (c v : Byte) : (frameBytes c v)[idx.val]? = some (frameByteAt idx c v) := by
  fin_cases idx <;> rfl

theorem frameBytes_drop (idx : Fin 5) (c v : Byte) :
    (frameBytes c v).drop idx.val = frameByteAt idx c v :: (frameBytes c v).drop (idx.val + 1) := by
  fin_cases idx <;> rfl

theorem fin_succ_val {k : Fin 5} (h : k ≠ 4) : (k + 1).val = k.val + 1 := by
  revert k; decide

/-- A cycle of a send keeps the latches, writes the byte at `enc_idx` and moves on or ends (R133). -/
theorem cycleAfter_busy {p : Ports} {s : State} (hrst : p.rst = false) (hbusy : s.encBusy = true) :
    (cycleAfter p s).encCmd = s.encCmd ∧ (cycleAfter p s).encVal = s.encVal ∧
      (cycleAfter p s).tx = s.tx ++ [frameByteAt s.encIdx s.encCmd s.encVal] ∧
      (s.encIdx = 4 → (cycleAfter p s).encBusy = false ∧ (cycleAfter p s).encIdx = 0) ∧
      (s.encIdx ≠ 4 → (cycleAfter p s).encBusy = true ∧ (cycleAfter p s).encIdx.val = s.encIdx.val + 1) := by
  obtain ⟨hb, hidx, hcmd, hval, htx⟩ := cycleAfter_sameEncoder s hrst
  rw [encoderAfter_busy p s hbusy] at hb hidx hcmd hval htx
  rw [hb, hidx, hcmd, hval, htx]
  refine ⟨by simp, by simp, by simp, fun hlast => ?_, fun hmore => ?_⟩
  · rw [advanceSend_last _ (by simpa using hlast)]
    exact ⟨rfl, rfl⟩
  · rw [advanceSend_more _ (by simpa using hmore)]
    exact ⟨hbusy, fin_succ_val hmore⟩

/-- A cycle that accepts `tx_start` latches the operands and writes nothing (R132). -/
theorem cycleAfter_startSend {p : Ports} {s : State} (hrst : p.rst = false) (hbusy : s.encBusy = false)
    (hstart : p.txStart = true) : SameEncoder (cycleAfter p s) (startSend p.txCmd p.txValue s) := by
  rw [← encoderAfter_start p s hbusy hstart]
  exact cycleAfter_sameEncoder s hrst

/-- Settles O42: the three cases of the Encoder's part. -/
theorem encoderCycleFollowsThePortRules : Obligations.EncoderCycleFollowsThePortRules := by
  intro p s hrst
  refine ⟨cycleAfter p s, cycle_eq_cycleAfter p s, fun hbusy hstart => ?_, fun hbusy hstart => ?_, fun hbusy => ?_⟩
  · have hview := cycleAfter_sameEncoder s hrst
    rwa [encoderAfter_idle p s hbusy hstart] at hview
  · exact cycleAfter_startSend hrst hbusy hstart
  · obtain ⟨hcmd, hval, htx, hlast, hmore⟩ := cycleAfter_busy hrst hbusy
    exact ⟨hcmd, hval, ⟨_, frameBytes_getElem? .., htx⟩, hlast, hmore⟩

/-- A send in progress puts the rest of its frame on TX, a byte a cycle, whatever the other inputs say. -/
theorem runCycles_rest_of_send {inputs : List Ports} {s : State} (hrst : ∀ p ∈ inputs, p.rst = false)
    (hbusy : s.encBusy = true) (hlen : s.encIdx.val + inputs.length = 5) :
    ∃ t, runCycles inputs s = .next t ∧ t.tx = s.tx ++ (frameBytes s.encCmd s.encVal).drop s.encIdx.val ∧
      t.encBusy = false ∧ t.encIdx = 0 := by
  induction inputs generalizing s with
  | nil => exact absurd hlen (Nat.ne_of_lt (s.encIdx.isLt))
  | cons p inputs ih =>
    obtain ⟨hp, hrest⟩ := List.forall_mem_cons.mp hrst
    obtain ⟨hcmd, hval, htx, hlast, hmore⟩ := cycleAfter_busy hp hbusy
    rw [List.length_cons] at hlen
    rw [runCycles, cycle_eq_cycleAfter, andThen_next, frameBytes_drop]
    by_cases hidx : s.encIdx = 4
    · have hfour : s.encIdx.val = 4 := congrArg Fin.val hidx
      obtain rfl : inputs = [] := List.eq_nil_of_length_eq_zero (by omega)
      exact ⟨cycleAfter p s, rfl, by rw [htx, hidx]; rfl, hlast hidx⟩
    · obtain ⟨hstill, hnext⟩ := hmore hidx
      obtain ⟨t, hrun, htxAfter, hfree⟩ := ih hrest hstill (by omega)
      refine ⟨t, hrun, ?_, hfree⟩
      rw [htxAfter, htx, hcmd, hval, hnext, List.append_assoc, List.singleton_append]

/-- Settles O49: the first cycle latches, the other five are a send from offset 0. -/
theorem clockedSendIsSend : Obligations.ClockedSendIsSend := by
  intro p0 p1 p2 p3 p4 p5 s hrst hbusy hstart
  obtain ⟨hp0, hrest⟩ := List.forall_mem_cons.mp hrst
  obtain ⟨hb, hidx, hcmd, hval, htx⟩ := cycleAfter_startSend hp0 hbusy hstart
  obtain ⟨t, hrun, htxAfter, hfree⟩ := runCycles_rest_of_send hrest hb (by rw [hidx]; rfl)
  refine ⟨t, by rw [runCycles, cycle_eq_cycleAfter, andThen_next, hrun], ?_, hfree⟩
  rw [htxAfter, htx, hcmd, hval, hidx]
  rfl

/-! ### Reset, outputs and independence -/

/-- Settles O43: the reset cycle is `RESET` after the arrivals; `rst` gates the three strobes. -/
theorem resetCycleOverridesEverything : Obligations.ResetCycleOverridesEverything := by
  intro p s hrst
  refine ⟨cycle_reset p s hrst, ?_, ?_, ?_⟩ <;> simp [outputs, rxPop, hrst]

theorem outputs_rxPop_of_run {p : Ports} {s : State} (hrst : p.rst = false) :
    (outputs p s).rxPop = true ↔ s.decActive = true ∧ s.rx ++ p.arrivals ≠ [] := by
  simp [outputs, rxPop, hrst, rxAvail, present]

/-- `pkt_valid` in a cycle of an invocation with the byte `b` at the head of RX (R128). -/
theorem outputs_pktValid_of_byte {p : Ports} {s : State} {b : Byte} {rest : List Byte} (hrst : p.rst = false)
    (hactive : s.decActive = true) (hrx : s.rx ++ p.arrivals = b :: rest) :
    (outputs p s).pktValid = true ↔ s.ps = .awaitingChecksum ∧ b = s.acc := by
  have hhead : (present p s).rx = b :: rest := hrx
  have hacc : (present p s).acc = s.acc := rfl
  simp [outputs, rxPop, hrst, hactive, rxAvail, hhead, comparesChecksum, headMatchesAcc, matchesAcc, hacc]

theorem outputs_pktValid_of_no_pop {p : Ports} {s : State} (h : (outputs p s).rxPop = false) :
    (outputs p s).pktValid = false := by
  have hpop : rxPop p s = false := h
  simp [outputs, hpop]

/-- In a cycle without reset `rx_pop` and `pkt_valid` tell the RX stream and the dispatch stream. -/
theorem cycleAfter_decoder_outputs {p : Ports} {s : State} (hrst : p.rst = false) :
    (cycleAfter p s).rx = (s.rx ++ p.arrivals).drop (if (outputs p s).rxPop then 1 else 0) ∧
    (cycleAfter p s).dispatched = s.dispatched ++
      (if (outputs p s).pktValid then [⟨(outputs p s).pktCmd, (outputs p s).pktValue⟩] else []) := by
  by_cases hpop : (outputs p s).rxPop = true
  · obtain ⟨hactive, hne⟩ := (outputs_rxPop_of_run hrst).mp hpop
    obtain ⟨b, rest, hrx⟩ := List.exists_cons_of_ne_nil hne
    obtain ⟨⟨-, -, -, -, hd⟩, hrxAfter, -⟩ := cycleAfter_byte hrst hactive hrx
    rw [if_pos hpop, hrxAfter, hrx, hd, decByte_dispatched]
    simp only [outputs_pktValid_of_byte hrst hactive hrx]
    exact ⟨rfl, rfl⟩
  · rw [if_neg hpop, outputs_pktValid_of_no_pop (eq_false_of_ne_true hpop), if_neg Bool.false_ne_true, List.append_nil]
    by_cases hactive : s.decActive = true
    · have hnil : s.rx ++ p.arrivals = [] := by
        by_contra hne
        exact hpop ((outputs_rxPop_of_run hrst).mpr ⟨hactive, hne⟩)
      obtain ⟨⟨-, -, -, -, hd⟩, hrxAfter, -⟩ := cycleAfter_empty hrst hactive hnil
      exact ⟨hrxAfter.trans hnil.symm, hd⟩
    · obtain ⟨⟨-, -, -, -, hd⟩, hrxAfter, -⟩ := cycleAfter_inactive hrst (eq_false_of_ne_true hactive)
      exact ⟨hrxAfter, hd⟩

/-- In a cycle without reset `tx_valid` tells the TX stream. -/
theorem cycleAfter_encoder_outputs {p : Ports} {s : State} (hrst : p.rst = false) :
    (cycleAfter p s).tx = s.tx ++ (if (outputs p s).txValid then [(outputs p s).txData] else []) := by
  have hvalid : (outputs p s).txValid = s.encBusy := by simp [outputs, hrst]
  rw [hvalid]
  by_cases hbusy : s.encBusy = true
  · obtain ⟨-, -, htx, -⟩ := cycleAfter_busy hrst hbusy
    rw [htx, if_pos hbusy]
    rfl
  · obtain ⟨-, -, -, -, htx⟩ := cycleAfter_sameEncoder s hrst
    rw [htx, if_neg hbusy, List.append_nil, encoderAfter, if_neg hbusy]
    split <;> rfl

/-- Settles O44: with reset no strobe is 1 and the streams stay; without it each agent's strobes tell its streams. -/
theorem outputPortsTellTheStreams : Obligations.OutputPortsTellTheStreams := by
  intro p s
  refine ⟨cycleAfter p s, cycle_eq_cycleAfter p s, ?_⟩
  cases hrst : p.rst with
  | true =>
    obtain ⟨-, hpop, hpkt, htx⟩ := resetCycleOverridesEverything p s hrst
    rw [hpop, hpkt, htx, cycleAfter_reset s hrst]
    exact ⟨rfl, (List.append_nil _).symm, (List.append_nil _).symm, nofun, rfl, rfl⟩
  | false =>
    obtain ⟨hrx, hd⟩ := cycleAfter_decoder_outputs (s := s) hrst
    refine ⟨hrx, hd, cycleAfter_encoder_outputs hrst, fun hpop => ?_, rfl, rfl⟩
    obtain ⟨hactive, hne⟩ := (outputs_rxPop_of_run hrst).mp hpop
    exact ⟨hne, hactive, rfl⟩

theorem decoderAfter_ignores_feed (p : Ports) {s : State} (f : Bool) (h : s.decActive = true) :
    decoderAfter { p with feed := f } s = decoderAfter p s := by
  rw [decoderAfter, if_pos h, decoderAfter, if_pos h]

theorem encoderAfter_ignores_request (p : Ports) {s : State} (f : Bool) (c v : Byte) (h : s.encBusy = true) :
    encoderAfter { p with txStart := f, txCmd := c, txValue := v } s = encoderAfter p s := by
  rw [encoderAfter_busy _ s h, encoderAfter_busy p s h]

/-- Settles O45: the port is read in the branch of an agent at rest only, and the Decoder's part leaves `enc_busy`. -/
theorem requestsToABusyAgentAreIgnored : Obligations.RequestsToABusyAgentAreIgnored := by
  refine ⟨fun p s f hactive => ?_, fun p s f c v hbusy => ?_⟩
  · have hdec := decoderAfter_ignores_feed p f (s := present p s) hactive
    rw [cycle_eq_cycleAfter, cycle_eq_cycleAfter]
    exact congrArg (fun t => (.next (if p.rst then resetRegisters (present p s) else encoderAfter p t) : Result)) hdec
  · obtain ⟨⟨hb, -⟩, -⟩ := decoderAfter_view p (present p s)
    have henc := encoderAfter_ignores_request p f c v (hb.trans hbusy)
    rw [cycle_eq_cycleAfter, cycle_eq_cycleAfter]
    exact congrArg (fun t => (.next (if p.rst then resetRegisters (present p s) else t) : Result)) henc

/-- Settles O46: each part of the cycle has the congruence of its agent's view; a reset makes all registers equal. -/
theorem decoderAndEncoderDoNotInterfere : Obligations.DecoderAndEncoderDoNotInterfere := by
  intro p q s t s' t' hpq hs ht
  cases (cycle_eq_cycleAfter p s).symm.trans hs
  cases (cycle_eq_cycleAfter q t).symm.trans ht
  refine ⟨fun hfeed harr h => ?_, fun hstart hc hv h => ?_⟩
  · have hpresent : SameDecoder (present p s) (present q t) := by
      obtain ⟨hregs, hrx, hactive⟩ := (sameDecoder_iff s t).mp h
      exact (sameDecoder_iff ..).mpr ⟨hregs, congrArg₂ (· ++ ·) hrx harr, hactive⟩
    cases hq : q.rst with
    | true =>
      obtain ⟨-, -, -, -, -, hrx, hd⟩ := hpresent
      rw [cycleAfter_reset s (hpq.trans hq), cycleAfter_reset t hq]
      exact ⟨rfl, rfl, rfl, rfl, rfl, hrx, hd⟩
    | false =>
      exact sameDecoder_trans (cycleAfter_sameDecoder s (hpq.trans hq))
        (sameDecoder_trans (decoderAfter_congr hfeed hpresent) (sameDecoder_symm (cycleAfter_sameDecoder t hq)))
  · cases hq : q.rst with
    | true =>
      obtain ⟨-, -, -, -, htx⟩ := h
      rw [cycleAfter_reset s (hpq.trans hq), cycleAfter_reset t hq]
      exact ⟨rfl, rfl, rfl, rfl, htx⟩
    | false =>
      rw [cycleAfter_run s (hpq.trans hq), cycleAfter_run t hq]
      obtain ⟨hview, -⟩ := decoderAfter_view p (present p s)
      obtain ⟨hview', -⟩ := decoderAfter_view q (present q t)
      exact encoderAfter_congr hstart hc hv (sameEncoder_trans hview (sameEncoder_trans h (sameEncoder_symm hview')))

/-! ### Runs of an invocation -/

/-- The invocation bit is nothing that a byte-step reads. -/
theorem decByte_startInvocation (s : State) (b : Byte) :
    decByte (startInvocation s) b = startInvocation (decByte s b) := by
  obtain ⟨hps, hcmd, hval, hacc, hd⟩ := sameRegisters_decByte (s := startInvocation s) (sameRegisters_refl s) b
  rw [decByte_writes (startInvocation s) b, hps, hcmd, hval, hacc, hd]
  exact congrArg startInvocation (decByte_writes s b).symm

/-- A quiet cycle with no send in progress is the Decoder's part alone. -/
theorem cycle_quiet_of_not_encBusy {s : State} (h : s.encBusy = false) :
    cycle Ports.quiet s = .next (decoderAfter Ports.quiet s) := by
  obtain ⟨⟨hb, -⟩, -⟩ := decoderAfter_view Ports.quiet s
  rw [cycle_next Ports.quiet s rfl, present_quiet, encoderAfter_idle _ _ (hb.trans h) rfl]

theorem endInvocation_startInvocation {s : State} (h : s.decActive = false) :
    endInvocation (startInvocation s) = s := by
  rw [endInvocation, startInvocation, ← h]

/-- Quiet cycles lead from `s` to `t`, and in each of them an invocation is in progress. -/
def QuietRun (s t : State) : Prop :=
  ∃ k, runCycles (List.replicate k Ports.quiet) s = .next t ∧
    ∀ j < k, ∃ u, runCycles (List.replicate j Ports.quiet) s = .next u ∧ u.decActive = true

theorem quietRun_refl (s : State) : QuietRun s s := ⟨0, rfl, fun _ hj => absurd hj (Nat.not_lt_zero _)⟩

theorem quietRun_cycle {s t u : State} (hactive : s.decActive = true) (hcycle : cycle Ports.quiet s = .next t)
    (h : QuietRun t u) : QuietRun s u := by
  obtain ⟨k, hrun, hbefore⟩ := h
  have hfirst : ∀ j, runCycles (List.replicate (j + 1) Ports.quiet) s = runCycles (List.replicate j Ports.quiet) t :=
    fun j => by rw [List.replicate_succ, runCycles, hcycle, andThen_next]
  refine ⟨k + 1, (hfirst k).trans hrun, fun j hj => ?_⟩
  cases j with
  | zero => exact ⟨s, rfl, hactive⟩
  | succ j => rw [hfirst]; exact hbefore j (Nat.lt_of_succ_lt_succ hj)

/-- A quiet cycle on an empty source ends the invocation, and it has done nothing else. -/
theorem quietRun_empty {s : State} (hactive : s.decActive = false) (hbusy : s.encBusy = false) (hrx : s.rx = []) :
    QuietRun (startInvocation s) s := by
  refine quietRun_cycle rfl (cycle_quiet_of_not_encBusy hbusy) ?_
  rw [decoderAfter_empty _ (startInvocation s) rfl hrx, endInvocation_startInvocation hactive]
  exact quietRun_refl s

/-- The quiet cycles of an invocation do what the loop of `feed` does, a byte a cycle; the last one only ends it when the source
has run empty. -/
theorem quietRun_feedRun {n : Nat} {s : State} (hactive : s.decActive = false) (hbusy : s.encBusy = false)
    (hlen : s.rx.length ≤ n) : QuietRun (startInvocation s) (feedRun n s) := by
  induction n generalizing s with
  | zero => exact quietRun_empty hactive hbusy (List.eq_nil_of_length_eq_zero (Nat.le_zero.mp hlen))
  | succ n ih =>
    cases hrx : s.rx with
    | nil => rw [feedRun_nil _ s hrx]; exact quietRun_empty hactive hbusy hrx
    | cons b rest =>
      have hstart : decByte (setRx rest (startInvocation s)) b = startInvocation (decByte (setRx rest s) b) :=
        decByte_startInvocation (setRx rest s) b
      have hactiveAfter : (decByte (setRx rest s) b).decActive = false := by simpa using hactive
      have hbusyAfter : (decByte (setRx rest s) b).encBusy = false := by simpa using hbusy
      refine quietRun_cycle rfl (cycle_quiet_of_not_encBusy hbusy) ?_
      by_cases hps : s.ps = .awaitingChecksum
      · rw [decoderAfter_done _ (startInvocation s) b rest rfl hrx hps, hstart,
          endInvocation_startInvocation hactiveAfter, feedRun_done n s b rest hrx hps]
        exact quietRun_refl _
      · rw [decoderAfter_more _ (startInvocation s) b rest rfl hrx hps, hstart, feedRun_more n s b rest hrx hps]
        exact ih hactiveAfter hbusyAfter (by simpa [hrx] using hlen)

/-- A byte of an invocation in a cycle in which nothing arrives, in terms of any state with the same registers. -/
theorem cycleAfter_byte_of_sameRegisters {p : Ports} {s u : State} {b : Byte} {rest : List Byte}
    (hp : p.rst = false ∧ p.arrivals = []) (hactive : s.decActive = true) (hrx : s.rx = b :: rest)
    (hregs : SameRegisters s u) :
    SameRegisters (cycleAfter p s) (decByte u b) ∧ (cycleAfter p s).rx = rest ∧
      ((cycleAfter p s).decActive = true ↔ u.ps ≠ .awaitingChecksum) ∧
      ((outputs p s).pktValid = true ↔ u.ps = .awaitingChecksum ∧ b = u.acc) := by
  have hhead : s.rx ++ p.arrivals = b :: rest := by rw [hp.2, List.append_nil, hrx]
  obtain ⟨hbyte, hrxAfter, hbit⟩ := cycleAfter_byte hp.1 hactive hhead
  have hpkt := outputs_pktValid_of_byte hp.1 hactive hhead
  obtain ⟨hps, -, -, hacc, -⟩ := id hregs
  rw [hps] at hbit
  rw [hps, hacc] at hpkt
  exact ⟨sameRegisters_trans hbyte (sameRegisters_decByte hregs b), hrxAfter, hbit, hpkt⟩

/-- Such a byte that is not compared leaves the invocation in progress and `pkt_valid` at 0. -/
theorem cycleAfter_uncompared_byte {p : Ports} {s u : State} {b : Byte} {rest : List Byte}
    (hp : p.rst = false ∧ p.arrivals = []) (hactive : s.decActive = true) (hrx : s.rx = b :: rest)
    (hregs : SameRegisters s u) (hps : u.ps ≠ .awaitingChecksum) :
    SameRegisters (cycleAfter p s) (decByte u b) ∧ (cycleAfter p s).rx = rest ∧ (cycleAfter p s).decActive = true ∧
      (outputs p s).pktValid = false := by
  obtain ⟨hbyte, hrxAfter, hbit, hpkt⟩ := cycleAfter_byte_of_sameRegisters hp hactive hrx hregs
  exact ⟨hbyte, hrxAfter, hbit.mpr hps, eq_false_of_ne_true fun h => hps (hpkt.mp h).1⟩

/-- The checksum of the latched command and value is what the accumulator holds (R52, R77). -/
theorem decByte_checksum_of_latched (c v : Byte) (s : State) :
    decByte (latchValue v (latchCommand c s)) (checksum c v) = acceptFrame (latchValue v (latchCommand c s)) :=
  decByte_pass (latchValue v (latchCommand c s)) rfl

/-- Settles O50: the cycle that accepts `feed`, then one cycle for each byte of the frame, the last of which is compared. -/
theorem frameIsConsumedInFiveCycles : Obligations.FrameIsConsumedInFiveCycles := by
  intro p0 p1 p2 p3 p4 p5 s c v rest hports hactive hps hfeed hrx
  simp only [List.forall_mem_cons] at hports
  obtain ⟨hp0, hp1, hp2, hp3, hp4, hp5, -⟩ := hports
  have hpkt0 : (outputs p0 s).pktValid = false := outputs_pktValid_of_no_pop (by simp [outputs, rxPop, hactive])
  obtain ⟨hregs1, hrx1, hact1⟩ := cycleAfter_inactive hp0.1 hactive
  rw [hp0.2, List.append_nil, hrx] at hrx1
  have hact1 := hact1.trans hfeed
  obtain ⟨hregs2, hrx2, hact2, hpkt1⟩ := cycleAfter_uncompared_byte hp1 hact1 hrx1 hregs1 (by simp [hps])
  rw [decByte_idle_header s hps] at hregs2
  obtain ⟨hregs3, hrx3, hact3, hpkt2⟩ := cycleAfter_uncompared_byte hp2 hact2 hrx2 hregs2 nofun
  rw [decByte_sawHeader1_header _ rfl] at hregs3
  obtain ⟨hregs4, hrx4, hact4, hpkt3⟩ := cycleAfter_uncompared_byte hp3 hact3 hrx3 hregs3 nofun
  rw [decByte_sawHeader2 _ c rfl] at hregs4
  obtain ⟨hregs5, hrx5, hact5, hpkt4⟩ := cycleAfter_uncompared_byte hp4 hact4 hrx4 hregs4 nofun
  rw [decByte_sawCmd _ v rfl] at hregs5
  obtain ⟨⟨hpsAfter, -, -, -, hd⟩, hrx6, hact6, hpkt5⟩ := cycleAfter_byte_of_sameRegisters hp5 hact5 hrx5 hregs5
  rw [decByte_checksum_of_latched] at hpsAfter hd
  refine ⟨_, _, _, _, _, _, cycle_eq_cycleAfter .., cycle_eq_cycleAfter .., cycle_eq_cycleAfter ..,
    cycle_eq_cycleAfter .., cycle_eq_cycleAfter .., cycle_eq_cycleAfter .., ?_, ?_, hrx6, hpsAfter, hd,
    hpkt0, hpkt1, hpkt2, hpkt3, hpkt4, hpkt5.mpr ⟨rfl, rfl⟩⟩
  · simp only [List.forall_mem_cons]
    exact ⟨hact1, hact2, hact3, hact4, hact5, by simp⟩
  · exact eq_false_of_ne_true fun h => hact6.mp h rfl

/-- Settles O47: the cycle that accepts `feed` opens the invocation, and the quiet cycles run its loop. -/
theorem clockedInvocationIsFeed : Obligations.ClockedInvocationIsFeed := by
  intro s hactive hbusy
  have hfeed : cycle { Ports.quiet with feed := true } s = .next (startInvocation s) := by
    have hpresent : present { Ports.quiet with feed := true } s = s := present_quiet s
    rw [cycle_next _ s rfl, hpresent, decoderAfter_start _ s hactive rfl,
      encoderAfter_idle _ (startInvocation s) hbusy rfl]
  have hexec : exec .decFeed s = .next (feedRun s.rx.length s) := invoke_eq_next.mpr ⟨hactive, rfl⟩
  obtain ⟨k, hrun, hbefore⟩ := quietRun_feedRun hactive hbusy le_rfl
  refine ⟨k, by rw [runCycles, hfeed, andThen_next, hrun, hexec], fun j hj => ?_⟩
  obtain ⟨u, hu, hbit⟩ := hbefore j hj
  exact ⟨u, by rw [runCycles, hfeed, andThen_next, hu], hbit⟩

/-- Settles O51: the byte of each cycle is skipped in `Idle`, and no comparison ends the invocation. -/
theorem endlessNoiseKeepsTheInvocationRunning : Obligations.EndlessNoiseKeepsTheInvocationRunning := by
  intro n s hactive hps hrx
  induction n generalizing s with
  | zero => exact ⟨s, rfl, hactive, hps, hrx, rfl⟩
  | succ n ih =>
    obtain ⟨⟨hpsAfter, -, -, -, hd⟩, hrxAfter, hactiveAfter⟩ :=
      cycleAfter_byte (p := { Ports.quiet with arrivals := [0x00] }) (rest := []) rfl hactive (by rw [hrx]; rfl)
    rw [decByte_idle_other s 0x00 hps (by decide)] at hpsAfter hd
    obtain ⟨t, hrun, ht, htps, htrx, htd⟩ :=
      ih _ (hactiveAfter.mpr (by simp [hps])) (hpsAfter.trans hps) hrxAfter
    exact ⟨t, by rw [List.replicate_succ, runCycles, cycle_eq_cycleAfter, andThen_next, hrun], ht, htps, htrx,
      htd.trans hd⟩

end Sys2Proof.Machine
end

section
/-! PROOFS. The rules of the whole machine. A step is one stimulus, the oldest one or a quiet cycle (`step_eq_runStimulus`), and
a stimulus has a next state (`stimulusAfter`) unless it is a nested `feed` (`runStimulus_eq`). So what every step keeps is
proved stimulus by stimulus. -/

namespace Sys2Proof.Machine

open Sys2Proof.Safety

/-! ### One step as a function of the state -/

/-- What a stimulus leaves when it is not refused (R63 and the clock). -/
def stimulusAfter (e : Stimulus) (s : State) : State :=
  match e with
  | .reset => resetRegisters s
  | .rx bytes => rxAppend bytes s
  | .feed none => feedRun s.rx.length s
  | .feed (some n) => feedRun n s
  | .send c v => if s.encBusy then s else { s with tx := s.tx ++ frameBytes c v }
  | .loop => loopBack s
  | .resetFlush dropRx dropTx => flush dropRx dropTx (resetRegisters s)
  | .cycle p => cycleAfter p s

/-- The one thing that is refused: a `feed` inside an invocation (U2, log entry 6). -/
def NestedFeed (e : Stimulus) (s : State) : Prop := s.decActive = true ∧ ∃ limit, e = .feed limit

/-- The stimulus a step uses: the oldest pending one, or a quiet cycle (log entry 2). -/
def nextStimulus (s : State) : Stimulus := s.env.headD (.cycle Ports.quiet)

/-- What is pending after a step. -/
def afterStimulus (s : State) : State := setEnv s.env.tail s

theorem step_eq_runStimulus (s : State) : step s = runStimulus (nextStimulus s) (afterStimulus s) := by
  unfold nextStimulus afterStimulus
  cases h : s.env with
  | nil =>
    have hself : setEnv [] s = s := by rw [← h, setEnv_self]
    exact (step_quiet s h).trans (congrArg (cycle Ports.quiet) hself.symm)
  | cons e rest => rw [step_stimulus s e rest h]; rfl

theorem invoke_of_active {s : State} (n : Nat) (h : s.decActive = true) : invoke n s = .refused .nestedFeed := if_pos h

theorem runStimulus_of_nestedFeed {e : Stimulus} {s : State} (h : NestedFeed e s) :
    runStimulus e s = .refused .nestedFeed := by
  obtain ⟨hactive, limit, rfl⟩ := h
  cases limit with
  | none => exact invoke_of_active _ hactive
  | some n => exact invoke_of_active n hactive

theorem runStimulus_of_not_nestedFeed {e : Stimulus} {s : State} (h : ¬ NestedFeed e s) :
    runStimulus e s = .next (stimulusAfter e s) := by
  cases e with
  | reset | rx bytes | loop | resetFlush dropRx dropTx => rfl
  | feed limit =>
    have hactive : s.decActive = false := eq_false_of_ne_true fun hactive => h ⟨hactive, limit, rfl⟩
    cases limit with
    | none => exact invoke_eq_next.mpr ⟨hactive, rfl⟩
    | some n => exact invoke_eq_next.mpr ⟨hactive, rfl⟩
  | send c v =>
    by_cases hbusy : s.encBusy = true
    · rw [stimulusAfter, if_pos hbusy]; exact exec_encSend_of_encBusy hbusy c v
    · rw [stimulusAfter, if_neg hbusy]; exact exec_encSend_appends_frame (eq_false_of_ne_true hbusy) c v
  | cycle p => exact cycle_eq_cycleAfter p s

/-- A step answers a next state exactly when its stimulus is no nested `feed`, and which. -/
theorem step_eq_next_iff (s t : State) :
    step s = .next t ↔
      ¬ NestedFeed (nextStimulus s) (afterStimulus s) ∧ stimulusAfter (nextStimulus s) (afterStimulus s) = t := by
  rw [step_eq_runStimulus]
  by_cases h : NestedFeed (nextStimulus s) (afterStimulus s)
  · simp [runStimulus_of_nestedFeed h, h]
  · simp [runStimulus_of_not_nestedFeed h, h]

/-- A stimulus other than the quiet cycle of an empty script stands at the head of the script. -/
theorem env_head?_of_nextStimulus {s : State} {e : Stimulus} (h : nextStimulus s = e) (he : e ≠ .cycle Ports.quiet) :
    s.env.head? = some e := by
  unfold nextStimulus at h
  cases henv : s.env with
  | nil => rw [henv] at h; exact absurd h.symm he
  | cons e' rest => rw [henv] at h; exact congrArg some h

/-- Settles O57: the refused stimulus is no quiet cycle, so it is the oldest pending one. -/
theorem stepStopsOnlyOnANestedFeed : Obligations.StepStopsOnlyOnANestedFeed := by
  intro s
  by_cases h : NestedFeed (nextStimulus s) (afterStimulus s)
  · have hrefused := runStimulus_of_nestedFeed h
    obtain ⟨hactive, limit, hfeed⟩ := h
    exact .inr ⟨(step_eq_runStimulus s).trans hrefused, hactive, limit, env_head?_of_nextStimulus hfeed nofun⟩
  · exact .inl ⟨_, (step_eq_next_iff s _).mpr ⟨h, rfl⟩⟩

/-! ### The invariant -/

theorem accInv_of_sameDecoder {s t : State} (h : SameDecoder t s) (hs : AccInv s) : AccInv t := by
  obtain ⟨hps, hcmd, hval, hacc, -⟩ := h
  unfold AccInv
  rw [hps, hcmd, hval, hacc]
  exact hs

theorem encInv_of_sameEncoder {s t : State} (h : SameEncoder t s) (hs : EncInv s) : EncInv t := by
  obtain ⟨hbusy, hidx, -⟩ := h
  unfold EncInv
  rw [hbusy, hidx]
  exact hs

theorem machineInv_resetRegisters (s : State) : MachineInv (resetRegisters s) :=
  ⟨accInv_of_idle rfl, fun _ => rfl⟩

theorem machineInv_feedRun (n : Nat) {s : State} (h : MachineInv s) : MachineInv (feedRun n s) := by
  obtain ⟨B, rest, -, hrun, -⟩ := feedRun_consumes n s
  obtain ⟨hacc, henc⟩ := h
  obtain ⟨hbusy, hidx, -⟩ := sameEncoder_consume B s
  rw [hrun]
  exact ⟨accInv_consume hacc B, fun hfree => hidx.symm.trans (henc (hbusy.trans hfree))⟩

theorem accInv_decoderAfter (p : Ports) {s : State} (h : AccInv s) : AccInv (decoderAfter p s) := by
  unfold decoderAfter
  split
  · split
    · exact h
    · next b rest _ =>
      have hbyte : AccInv (decByte (setRx rest s) b) := accInv_decByte (s := setRx rest s) h b
      split <;> exact hbyte
  · split <;> exact h

theorem encInv_advanceSend {s : State} (h : s.encBusy = true) : EncInv (advanceSend s) := by
  by_cases hlast : s.encIdx = 4
  · rw [advanceSend_last s hlast]; exact fun _ => rfl
  · rw [advanceSend_more s hlast]; exact fun hfree => absurd (h.symm.trans hfree) (by decide)

theorem encInv_encoderAfter (p : Ports) {s : State} (h : EncInv s) : EncInv (encoderAfter p s) := by
  unfold encoderAfter
  split
  · next hbusy => exact encInv_advanceSend hbusy
  · split
    · exact fun hfree => nomatch hfree
    · exact h

theorem machineInv_cycleAfter (p : Ports) {s : State} (h : MachineInv s) : MachineInv (cycleAfter p s) := by
  obtain ⟨hacc, henc⟩ := h
  cases hrst : p.rst with
  | true => rw [cycleAfter_reset s hrst]; exact machineInv_resetRegisters _
  | false =>
    exact ⟨accInv_of_sameDecoder (cycleAfter_sameDecoder s hrst) (accInv_decoderAfter p (s := present p s) hacc),
      encInv_of_sameEncoder (cycleAfter_sameEncoder s hrst) (encInv_encoderAfter p henc)⟩

theorem machineInv_stimulusAfter (e : Stimulus) {s : State} (h : MachineInv s) : MachineInv (stimulusAfter e s) := by
  cases e with
  | reset => exact machineInv_resetRegisters s
  | rx bytes | loop => exact h
  | feed limit => cases limit <;> exact machineInv_feedRun _ h
  | send c v => rw [stimulusAfter]; split <;> exact h
  | resetFlush dropRx dropTx => exact machineInv_resetRegisters s
  | cycle p => exact machineInv_cycleAfter p h

/-- Settles O53: in `Idle` there is nothing to sum, and `enc_idx` is reset to 0. -/
theorem invariantHoldsAtReset : Obligations.InvariantHoldsAtReset := machineInv_resetRegisters State.reset

/-- Settles O54: stimulus by stimulus; the Decoder's clause is kept by each byte-step, the Encoder's by each emission. -/
theorem everyStepKeepsTheInvariant : Obligations.EveryStepKeepsTheInvariant := by
  intro s t hinv h
  obtain ⟨-, rfl⟩ := (step_eq_next_iff s t).mp h
  exact machineInv_stimulusAfter _ (s := afterStimulus s) hinv

/-! ### Stale registers -/

/-- The data registers replaced. -/
def setData (c v a : Byte) (s : State) : State := { s with cmd := c, val := v, acc := a }

/-- The values that the data registers of `s` may be replaced by without a rule reading the difference (R23). -/
def StaleData (s : State) (c v a : Byte) : Prop :=
  (s.ps = .sawCmd → c = s.cmd ∧ a = s.acc) ∧ (s.ps = .awaitingChecksum → c = s.cmd ∧ v = s.val ∧ a = s.acc)

theorem sameUpToStale_iff (s t : State) :
    SameUpToStale s t ↔ ∃ c v a, t = setData c v a s ∧ StaleData s c v a := by
  constructor
  · rintro ⟨ht, hcmd, hchk⟩; exact ⟨t.cmd, t.val, t.acc, ht, hcmd, hchk⟩
  · rintro ⟨c, v, a, rfl, hcmd, hchk⟩; exact ⟨rfl, hcmd, hchk⟩

theorem sameUpToStale_refl (s : State) : SameUpToStale s s :=
  ⟨rfl, fun _ => ⟨rfl, rfl⟩, fun _ => ⟨rfl, rfl, rfl⟩⟩

/-- An operation that moves neither `ps` nor a data register, and reads no data register, keeps the relation. -/
theorem sameUpToStale_map {f : State → State} {s t : State}
    (hcomm : ∀ c v a, f (setData c v a s) = setData c v a (f s))
    (hkeep : (f s).ps = s.ps ∧ (f s).cmd = s.cmd ∧ (f s).val = s.val ∧ (f s).acc = s.acc) (h : SameUpToStale s t) :
    SameUpToStale (f s) (f t) := by
  obtain ⟨c, v, a, rfl, hstale⟩ := (sameUpToStale_iff s t).mp h
  obtain ⟨hps, hcmd, hval, hacc⟩ := hkeep
  refine (sameUpToStale_iff ..).mpr ⟨c, v, a, hcomm c v a, ?_⟩
  unfold StaleData
  rw [hps, hcmd, hval, hacc]
  exact hstale

/-- A move to a state in which nothing is latched makes every data register stale. -/
theorem sameUpToStale_setPs {p : Ps} {s t : State} (hcmd : p ≠ .sawCmd) (hchk : p ≠ .awaitingChecksum)
    (h : SameUpToStale s t) : SameUpToStale (setPs p s) (setPs p t) := by
  obtain ⟨c, v, a, rfl, -⟩ := (sameUpToStale_iff s t).mp h
  exact (sameUpToStale_iff ..).mpr ⟨c, v, a, rfl, fun hp => absurd hp hcmd, fun hp => absurd hp hchk⟩

/-- A byte-step reads a data register only where the relation makes it equal (R23, R75 to R77). -/
theorem sameUpToStale_decByte {s t : State} (h : SameUpToStale s t) (b : Byte) :
    SameUpToStale (decByte s b) (decByte t b) := by
  obtain ⟨c, v, a, rfl, hcmd, hchk⟩ := (sameUpToStale_iff s t).mp h
  cases hps : s.ps with
  | idle =>
    by_cases hb : b = Config.header1
    · subst hb
      rw [decByte_idle_header s hps, decByte_idle_header (setData c v a s) hps]
      exact sameUpToStale_setPs nofun nofun h
    · rw [decByte_idle_other s b hps hb, decByte_idle_other (setData c v a s) b hps hb]
      exact h
  | sawHeader1 =>
    by_cases hb : b = Config.header2
    · subst hb
      rw [decByte_sawHeader1_header s hps, decByte_sawHeader1_header (setData c v a s) hps]
      exact sameUpToStale_setPs nofun nofun h
    · rw [decByte_sawHeader1_other s b hps hb, decByte_sawHeader1_other (setData c v a s) b hps hb]
      exact sameUpToStale_setPs nofun nofun h
  | sawHeader2 =>
    rw [decByte_sawHeader2 s b hps, decByte_sawHeader2 (setData c v a s) b hps]
    exact (sameUpToStale_iff ..).mpr ⟨b, v, b, rfl, fun _ => ⟨rfl, rfl⟩, nofun⟩
  | sawCmd =>
    obtain ⟨rfl, rfl⟩ := hcmd hps
    rw [decByte_sawCmd s b hps, decByte_sawCmd (setData s.cmd v s.acc s) b hps]
    exact (sameUpToStale_iff ..).mpr ⟨s.cmd, b, addMod256 s.acc b, rfl, nofun, fun _ => ⟨rfl, rfl, rfl⟩⟩
  | awaitingChecksum =>
    obtain ⟨rfl, rfl, rfl⟩ := hchk hps
    exact sameUpToStale_refl _

theorem sameUpToStale_setRx (rest : List Byte) {s t : State} (h : SameUpToStale s t) :
    SameUpToStale (setRx rest s) (setRx rest t) :=
  sameUpToStale_map (fun _ _ _ => rfl) ⟨rfl, rfl, rfl, rfl⟩ h

/-- The relation leaves equal everything but the data registers. -/
theorem sameUpToStale_fields {s t : State} (h : SameUpToStale s t) :
    t.ps = s.ps ∧ t.rx = s.rx ∧ t.decActive = s.decActive ∧ t.env = s.env := by
  obtain ⟨c, v, a, rfl, -⟩ := (sameUpToStale_iff s t).mp h
  exact ⟨rfl, rfl, rfl, rfl⟩

theorem sameUpToStale_feedRun (n : Nat) {s t : State} (h : SameUpToStale s t) :
    SameUpToStale (feedRun n s) (feedRun n t) := by
  induction n generalizing s t with
  | zero => exact h
  | succ n ih =>
    obtain ⟨hps, hrx, -⟩ := sameUpToStale_fields h
    cases hs : s.rx with
    | nil => rw [feedRun_nil _ s hs, feedRun_nil _ t (hrx.trans hs)]; exact h
    | cons b rest =>
      have hbyte := sameUpToStale_decByte (sameUpToStale_setRx rest h) b
      by_cases hchk : s.ps = .awaitingChecksum
      · rw [feedRun_done n s b rest hs hchk, feedRun_done n t b rest (hrx.trans hs) (hps.trans hchk)]
        exact hbyte
      · rw [feedRun_more n s b rest hs hchk, feedRun_more n t b rest (hrx.trans hs) (hps ▸ hchk)]
        exact ih hbyte

theorem sameUpToStale_startInvocation {s t : State} (h : SameUpToStale s t) :
    SameUpToStale (startInvocation s) (startInvocation t) :=
  sameUpToStale_map (fun _ _ _ => rfl) ⟨rfl, rfl, rfl, rfl⟩ h

theorem sameUpToStale_endInvocation {s t : State} (h : SameUpToStale s t) :
    SameUpToStale (endInvocation s) (endInvocation t) :=
  sameUpToStale_map (fun _ _ _ => rfl) ⟨rfl, rfl, rfl, rfl⟩ h

theorem sameUpToStale_decoderAfter (p : Ports) {s t : State} (h : SameUpToStale s t) :
    SameUpToStale (decoderAfter p s) (decoderAfter p t) := by
  obtain ⟨hps, hrx, hactive, -⟩ := sameUpToStale_fields h
  have hcompared : comparesChecksum t = comparesChecksum s := by rw [comparesChecksum, comparesChecksum, hps]
  unfold decoderAfter
  rw [hactive, hrx, hcompared]
  split
  · split
    · exact sameUpToStale_endInvocation h
    · next b rest _ =>
      have hbyte := sameUpToStale_decByte (sameUpToStale_setRx rest h) b
      split
      · exact sameUpToStale_endInvocation hbyte
      · exact hbyte
  · split
    · exact sameUpToStale_startInvocation h
    · exact h

theorem advanceSend_setData (c v a : Byte) (s : State) : advanceSend (setData c v a s) = setData c v a (advanceSend s) := by
  by_cases h : s.encIdx = 4
  · rw [advanceSend_last s h, advanceSend_last (setData c v a s) h]; rfl
  · rw [advanceSend_more s h, advanceSend_more (setData c v a s) h]; rfl

theorem encoderAfter_setData (p : Ports) (c v a : Byte) (s : State) :
    encoderAfter p (setData c v a s) = setData c v a (encoderAfter p s) := by
  have hbusy : (setData c v a s).encBusy = s.encBusy := rfl
  unfold encoderAfter
  rw [hbusy]
  split
  · exact advanceSend_setData c v a (txWrite (frameByteAt s.encIdx s.encCmd s.encVal) s)
  · split <;> rfl

theorem sameUpToStale_encoderAfter (p : Ports) {s t : State} (h : SameUpToStale s t) :
    SameUpToStale (encoderAfter p s) (encoderAfter p t) := by
  obtain ⟨⟨hps, hcmd, hval, hacc, -⟩, -⟩ := encoderAfter_view p s
  exact sameUpToStale_map (fun c v a => encoderAfter_setData p c v a s) ⟨hps, hcmd, hval, hacc⟩ h

/-- After a reset no trace of a stale register is left. -/
theorem sameUpToStale_resetRegisters {s t : State} (h : SameUpToStale s t) :
    SameUpToStale (resetRegisters s) (resetRegisters t) := by
  obtain ⟨c, v, a, rfl, -⟩ := (sameUpToStale_iff s t).mp h
  exact sameUpToStale_refl (resetRegisters s)

theorem sameUpToStale_cycleAfter (p : Ports) {s t : State} (h : SameUpToStale s t) :
    SameUpToStale (cycleAfter p s) (cycleAfter p t) := by
  have hpresent : SameUpToStale (present p s) (present p t) :=
    sameUpToStale_map (f := present p) (fun _ _ _ => rfl) ⟨rfl, rfl, rfl, rfl⟩ h
  cases hrst : p.rst with
  | true => rw [cycleAfter_reset s hrst, cycleAfter_reset t hrst]; exact sameUpToStale_resetRegisters hpresent
  | false =>
    rw [cycleAfter_run s hrst, cycleAfter_run t hrst]
    exact sameUpToStale_encoderAfter p (sameUpToStale_decoderAfter p hpresent)

theorem sameUpToStale_stimulusAfter (e : Stimulus) {s t : State} (h : SameUpToStale s t) :
    SameUpToStale (stimulusAfter e s) (stimulusAfter e t) := by
  cases e with
  | reset => exact sameUpToStale_resetRegisters h
  | rx bytes => exact sameUpToStale_map (f := rxAppend bytes) (fun _ _ _ => rfl) ⟨rfl, rfl, rfl, rfl⟩ h
  | loop => exact sameUpToStale_map (f := loopBack) (fun _ _ _ => rfl) ⟨rfl, rfl, rfl, rfl⟩ h
  | feed limit =>
    cases limit with
    | none =>
      obtain ⟨-, hrx, -⟩ := sameUpToStale_fields h
      rw [stimulusAfter, stimulusAfter, hrx]
      exact sameUpToStale_feedRun _ h
    | some n => exact sameUpToStale_feedRun n h
  | send c v =>
    refine sameUpToStale_map (f := stimulusAfter (.send c v)) (fun _ _ _ => ?_) ?_ h
    · by_cases hbusy : s.encBusy = true
      · rw [stimulusAfter, stimulusAfter, if_pos hbusy]; exact if_pos hbusy
      · rw [stimulusAfter, stimulusAfter, if_neg hbusy]; exact if_neg hbusy
    · rw [stimulusAfter]; split <;> exact ⟨rfl, rfl, rfl, rfl⟩
  | resetFlush dropRx dropTx =>
    exact sameUpToStale_map (f := flush dropRx dropTx) (fun _ _ _ => rfl) ⟨rfl, rfl, rfl, rfl⟩
      (sameUpToStale_resetRegisters h)
  | cycle p => exact sameUpToStale_cycleAfter p h

/-- Settles O55: the two states use the same stimulus, neither or both are refused, and the relation is kept. -/
theorem staleRegistersHaveNoEffect : Obligations.StaleRegistersHaveNoEffect := by
  intro s t s' h hstep
  obtain ⟨hallowed, rfl⟩ := (step_eq_next_iff s s').mp hstep
  obtain ⟨-, -, hactive, henv⟩ := sameUpToStale_fields h
  have hnext : nextStimulus t = nextStimulus s := by rw [nextStimulus, nextStimulus, henv]
  have hafter : SameUpToStale (afterStimulus s) (afterStimulus t) := by
    rw [afterStimulus, afterStimulus, henv]
    exact sameUpToStale_map (f := setEnv s.env.tail) (fun _ _ _ => rfl) ⟨rfl, rfl, rfl, rfl⟩ h
  have hallowed' : ¬ NestedFeed (nextStimulus t) (afterStimulus t) := by
    rw [hnext]
    exact fun ⟨hbit, hfeed⟩ => hallowed ⟨hactive.symm.trans hbit, hfeed⟩
  refine ⟨_, (step_eq_next_iff t _).mpr ⟨hallowed', rfl⟩, ?_⟩
  rw [hnext]
  exact sameUpToStale_stimulusAfter _ hafter

end Sys2Proof.Machine
end

section
/-! PROOFS. What the streams and the registers may do in a step (R30 to R36, R103), which operation a step runs (R63, R133),
and which operation writes what (R10, R57). -/

namespace Sys2Proof.Machine

open Sys2Proof.Safety

/-! ### Traffic at the transaction level -/

/-- Each statement of the traffic consumes bytes in order from what was on RX and what it makes available. -/
theorem stimulusAfter_consumes {e : Stimulus} {s : State} (htraffic : traffic e = true) (hactive : s.decActive = false) :
    ∃ B, B ++ (stimulusAfter e s).rx = s.rx ++ arriving [e] ∧ SameRegisters (stimulusAfter e s) (consume B s) ∧
      (stimulusAfter e s).decActive = false := by
  cases e with
  | rx bytes => exact ⟨[], by simp [stimulusAfter, arriving], sameRegisters_refl s, hactive⟩
  | send c v =>
    refine ⟨[], ?_⟩
    rw [stimulusAfter]
    split <;> exact ⟨by simp [arriving], sameRegisters_refl s, hactive⟩
  | feed limit =>
    have hloop : ∀ n, ∃ B, B ++ (feedRun n s).rx = s.rx ++ [] ∧ SameRegisters (feedRun n s) (consume B s) ∧
        (feedRun n s).decActive = false := fun n => by
      obtain ⟨B, rest, hrx, hrun, -⟩ := feedRun_consumes n s
      rw [hrun]
      exact ⟨B, by rw [List.append_nil, hrx, setRx_rx], sameRegisters_refl (consume B s), by
        rw [setRx_decActive, consume_decActive, hactive]⟩
    cases limit with
    | none => exact hloop s.rx.length
    | some n => exact hloop n
  | reset | loop | resetFlush dropRx dropTx | cycle p => nomatch htraffic

theorem arriving_cons (e : Stimulus) (l : List Stimulus) : arriving (e :: l) = arriving [e] ++ arriving l := by
  cases e <;> simp [arriving]

/-- Over any traffic the run is a fold over the bytes consumed, statement after statement. -/
theorem runSteps_traffic {l : List Stimulus} {s : State} (hactive : s.decActive = false)
    (htraffic : ∀ e ∈ l, traffic e = true) :
    ∃ t consumed, runSteps l.length (setEnv l s) = .next t ∧ consumed ++ t.rx = s.rx ++ arriving l ∧
      SameRegisters t (consume consumed s) := by
  induction l generalizing s with
  | nil => exact ⟨setEnv [] s, [], rfl, by simp [arriving], sameRegisters_refl s⟩
  | cons e l ih =>
    obtain ⟨he, hl⟩ := List.forall_mem_cons.mp htraffic
    obtain ⟨A, hrxA, hregsA, hactiveA⟩ := stimulusAfter_consumes he hactive
    obtain ⟨t, B, hrun, hrxB, hregsB⟩ := ih hactiveA hl
    have hstep : step (setEnv (e :: l) s) = .next (setEnv l (stimulusAfter e s)) := by
      have hallowed : ¬ NestedFeed e s := fun h => absurd (hactive.symm.trans h.1) (by decide)
      rw [step_stimulus _ e l rfl, setEnv_setEnv, runStimulus_setEnv, runStimulus_of_not_nestedFeed hallowed,
        replaceEnv_next]
    refine ⟨t, A ++ B, by rw [List.length_cons, runSteps, hstep, andThen_next, hrun], ?_,
      sameRegisters_consume_append hregsA hregsB⟩
    rw [List.append_assoc, hrxB, ← List.append_assoc, hrxA, arriving_cons e l, List.append_assoc]

/-- Settles O29: the script is the traffic. -/
theorem invocationBoundariesDoNotMatter : Obligations.InvocationBoundariesDoNotMatter :=
  fun _ hactive htraffic => runSteps_traffic hactive htraffic

/-! ### The streams in a step -/

theorem stimulusAfter_dispatched_grows (e : Stimulus) (s : State) :
    s.dispatched <+: (stimulusAfter e s).dispatched := by
  cases e with
  | reset | rx bytes | loop | resetFlush dropRx dropTx => exact List.prefix_rfl
  | feed limit =>
    have hloop : ∀ n, s.dispatched <+: (feedRun n s).dispatched := fun n => by
      obtain ⟨B, rest, -, hrun, -⟩ := feedRun_consumes n s
      rw [hrun]
      exact consume_dispatched_grows B s
    cases limit <;> exact hloop _
  | send c v => rw [stimulusAfter]; split <;> exact List.prefix_rfl
  | cycle p =>
    obtain ⟨t, ht, -, hd, -⟩ := outputPortsTellTheStreams p s
    cases (cycle_eq_cycleAfter p s).symm.trans ht
    exact ⟨_, hd.symm⟩

theorem stimulusAfter_tx (e : Stimulus) (s : State) :
    s.tx <+: (stimulusAfter e s).tx ∨
    (e = .loop ∧ (stimulusAfter e s).tx = [] ∧ (stimulusAfter e s).rx = s.rx ++ s.tx) ∨
    ((∃ dropRx, e = .resetFlush dropRx true) ∧ (stimulusAfter e s).tx = []) := by
  cases e with
  | reset | rx bytes => exact .inl List.prefix_rfl
  | loop => exact .inr (.inl ⟨rfl, rfl, rfl⟩)
  | feed limit =>
    have hloop : ∀ n, s.tx <+: (feedRun n s).tx := fun n => by
      obtain ⟨B, rest, -, hrun, -⟩ := feedRun_consumes n s
      obtain ⟨-, -, -, -, htx⟩ := sameEncoder_consume B s
      rw [hrun, setRx_tx, ← htx]
    cases limit <;> exact .inl (hloop _)
  | send c v =>
    left
    rw [stimulusAfter]
    split
    · exact List.prefix_rfl
    · exact List.prefix_append ..
  | resetFlush dropRx dropTx =>
    cases dropTx with
    | true => exact .inr (.inr ⟨⟨dropRx, rfl⟩, rfl⟩)
    | false => exact .inl List.prefix_rfl
  | cycle p =>
    obtain ⟨t, ht, -, -, htx, -⟩ := outputPortsTellTheStreams p s
    cases (cycle_eq_cycleAfter p s).symm.trans ht
    exact .inl ⟨_, htx.symm⟩

/-- A cycle that empties the RX stream has consumed its one byte: it pops at most one, and nothing arrived behind it. -/
theorem cycleAfter_rx_empty {p : Ports} {s : State} (hne : s.rx ≠ []) (hnil : (cycleAfter p s).rx = []) :
    SameRegisters (cycleAfter p s) (consume s.rx s) := by
  cases hrst : p.rst with
  | true =>
    rw [cycleAfter_reset s hrst] at hnil
    exact absurd (List.append_eq_nil_iff.mp hnil).1 hne
  | false =>
    obtain ⟨B, hlen, hrx, hregs⟩ := cycleAfter_consumes s hrst
    have hpos := List.length_pos_iff.mpr hne
    rw [hnil, List.append_nil] at hrx
    rw [hrx, List.length_append] at hlen
    have harr : p.arrivals = [] := List.eq_nil_of_length_eq_zero (by omega)
    rwa [hrx, harr, List.append_nil] at hregs

theorem stimulusAfter_rx_empty {e : Stimulus} {s : State} (hne : s.rx ≠ []) (hnil : (stimulusAfter e s).rx = []) :
    SameRegisters (stimulusAfter e s) (consume s.rx s) ∨ ∃ dropTx, e = .resetFlush true dropTx := by
  cases e with
  | reset => exact absurd hnil hne
  | rx bytes | loop => exact absurd (List.append_eq_nil_iff.mp hnil).1 hne
  | feed limit =>
    have hloop : ∀ n, (feedRun n s).rx = [] → SameRegisters (feedRun n s) (consume s.rx s) := fun n hall => by
      obtain ⟨B, rest, hrx, hrun, -⟩ := feedRun_consumes n s
      rw [hrun, setRx_rx] at hall
      rw [hrun, hrx, hall, List.append_nil]
      exact sameRegisters_refl (consume B s)
    cases limit <;> exact .inl (hloop _ hnil)
  | send c v =>
    rw [stimulusAfter] at hnil
    split at hnil <;> exact absurd hnil hne
  | resetFlush dropRx dropTx =>
    cases dropRx with
    | true => exact .inr ⟨dropTx, rfl⟩
    | false => exact absurd hnil hne
  | cycle p => exact .inl (cycleAfter_rx_empty hne hnil)

/-- Settles O56: stimulus by stimulus; using up the stimulus changes no stream. -/
theorem streamsAreAppendOnly : Obligations.StreamsAreAppendOnly := by
  intro s t h
  obtain ⟨-, rfl⟩ := (step_eq_next_iff s t).mp h
  refine ⟨stimulusAfter_dispatched_grows _ (afterStimulus s), ?_, fun hne hnil => ?_⟩
  · obtain hgrows | ⟨hloop, htx, hrx⟩ | ⟨⟨dropRx, hflush⟩, htx⟩ := stimulusAfter_tx (nextStimulus s) (afterStimulus s)
    · exact .inl hgrows
    · exact .inr (.inl ⟨env_head?_of_nextStimulus hloop nofun, htx, hrx⟩)
    · exact .inr (.inr ⟨⟨dropRx, env_head?_of_nextStimulus hflush nofun⟩, htx⟩)
  · obtain hregs | ⟨dropTx, hflush⟩ := stimulusAfter_rx_empty (s := afterStimulus s) hne hnil
    · have hself : SameRegisters (consume s.rx (afterStimulus s)) (consume s.rx s) :=
        sameRegisters_consume (s := afterStimulus s) (sameRegisters_refl s) s.rx
      exact .inl (sameRegisters_trans hregs hself)
    · exact .inr ⟨dropTx, env_head?_of_nextStimulus hflush nofun⟩

/-! ### Which operation a step runs -/

/-- A cycle of an invocation with no send and no request runs the byte-step of the head byte, then the end of the invocation
when it was a comparison. -/
theorem cycle_eq_exec_byteOperation {p : Ports} {s : State} {b : Byte} {rest : List Byte} (hrst : p.rst = false)
    (hstart : p.txStart = false) (hbusy : s.encBusy = false) (hactive : s.decActive = true)
    (hrx : s.rx ++ p.arrivals = b :: rest) :
    cycle p s = andThen (exec (byteOperation s b) (setRx rest s)) (afterByteStep (byteOperation s b)) := by
  have hexec : exec (byteOperation s b) (setRx rest s) = .next (decByte (setRx rest s) b) :=
    (exec_byteOperation (setRx rest s) b).1
  have hdec : decoderCycle p (present p s) =
      andThen (exec (byteOperation s b) (setRx rest s)) (afterByteStep (byteOperation s b)) := by
    have hactivePresent : (present p s).decActive = true := hactive
    rw [decoderCycle, if_pos hactivePresent, rxRead_cons (present p s) b rest hrx]
    rfl
  have hfree : (if stepDone (byteOperation s b) then endInvocation (decByte (setRx rest s) b)
      else decByte (setRx rest s) b).encBusy = false := by
    split <;> simpa using hbusy
  rw [cycle_run p s hrst, hdec, hexec, andThen_next, afterByteStep, andThen_next, encoderCycle_next,
    encoderAfter_idle p _ hfree hstart]

/-- Settles O8: the key of a state and a byte decodes to the operation that the cycle runs. -/
theorem stepRunsTheSelectedByteStep : Obligations.StepRunsTheSelectedByteStep := by
  refine ⟨fun s p more b rest henv hrst hstart hbusy hactive hrx => ?_, fun s b rest henv hbusy hactive hrx => ?_⟩
  · refine ⟨byteOperation s b, decode_byteStepKey s b, byteOperation_wf s b, ?_⟩
    rw [step_stimulus s _ more henv]
    exact cycle_eq_exec_byteOperation (s := setEnv more s) hrst hstart hbusy hactive hrx
  · refine ⟨byteOperation s b, decode_byteStepKey s b, byteOperation_wf s b, ?_⟩
    rw [step_quiet s henv]
    exact cycle_eq_exec_byteOperation (p := Ports.quiet) rfl rfl hbusy hactive ((List.append_nil _).trans hrx)

/-- A cycle of a send with no invocation and no request for one runs the emission at `enc_idx`, then moves on. -/
theorem cycle_eq_exec_emissionOperation {p : Ports} {s : State} (hrst : p.rst = false) (hfeed : p.feed = false)
    (hactive : s.decActive = false) (hbusy : s.encBusy = true) :
    cycle p s = andThen (exec (emissionOperation s) (present p s)) fun t => .next (advanceSend t) := by
  have hbusyPresent : (present p s).encBusy = true := hbusy
  rw [cycle_run p s hrst, decoderCycle_next, andThen_next, decoderAfter_idle p (present p s) hactive hfeed, encoderCycle,
    if_pos hbusyPresent]
  rfl

theorem decode_emissionKey (s : State) : decode (emissionKey s) = .instr (emissionOperation s) :=
  decode_emission_offset ..

/-- Settles O9: the key of `enc_idx` and the latches decodes to the emission that the cycle runs. -/
theorem stepRunsTheSelectedEmission : Obligations.StepRunsTheSelectedEmission := by
  refine ⟨fun s p more henv hrst hfeed hactive hbusy => ?_, fun s henv hactive hbusy => ?_⟩
  · refine ⟨emissionOperation s, decode_emissionKey s, selectEmission_wf .., ?_⟩
    rw [step_stimulus s _ more henv]
    exact cycle_eq_exec_emissionOperation (s := setEnv more s) hrst hfeed hactive hbusy
  · refine ⟨emissionOperation s, decode_emissionKey s, selectEmission_wf .., ?_⟩
    rw [step_quiet s henv, cycle_eq_exec_emissionOperation (p := Ports.quiet) rfl rfl hactive hbusy, present_quiet]

/-- Settles O10: the step on a script statement is what the statement says of the state with it used up. -/
theorem stepRunsTheScriptStatement : Obligations.StepRunsTheScriptStatement := by
  intro s more
  refine ⟨fun h => ⟨rfl, step_stimulus s _ more h⟩, fun h => ⟨rfl, step_stimulus s _ more h⟩,
    fun c v h => ⟨decode_frame_frameBits c v, step_stimulus s _ more h⟩, fun bytes h => ?_, fun h => ?_,
    fun dropRx dropTx h => ?_, fun p h hrst => ?_⟩
  · rw [step_stimulus s _ more h]; rfl
  · rw [step_stimulus s _ more h]; rfl
  · rw [step_stimulus s _ more h]; rfl
  · rw [step_stimulus s _ more h]
    exact cycle_reset p (setEnv more s) hrst

/-! ### What the operations write -/

/-- Settles O52: the reset state has `ps = Idle`, where only the two rows of `Idle` apply. -/
theorem resetSetsEveryRegister : Obligations.ResetSetsEveryRegister := by
  intro s
  refine ⟨resetRegisters s, rfl, rfl, fun b => ?_⟩
  by_cases hb : b = Config.header1
  · exact .inl (hb ▸ byteOperation_idle_header (resetRegisters s) rfl)
  · exact .inr (byteOperation_idle_other (resetRegisters s) b rfl hb)

/-- Every operation is a step of the Decoder, one of the Encoder, `DEC.FEED` or `RESET` (R57). -/
theorem operation_families (i : Instr) :
    decoderStep i = true ∨ encoderOperation i = true ∨ i = .decFeed ∨ i = .reset := by
  cases i <;> simp [decoderStep, encoderOperation]

/-- Settles O58: the guards of `DEC.FEED` and `ENC.SEND` leave a next state, and no operation reaches the script. -/
theorem everyOperationCompletes : Obligations.EveryOperationCompletes := by
  intro i s hfeed
  cases i with
  | decFeed =>
    have hexec : exec .decFeed s = .next (feedRun s.rx.length s) := invoke_eq_next.mpr ⟨hfeed rfl, rfl⟩
    obtain ⟨-, -, henv, -⟩ := feedFrame s _ hexec
    exact ⟨_, hexec, henv⟩
  | encSend c v =>
    by_cases hbusy : s.encBusy = true
    · exact ⟨s, exec_encSend_of_encBusy hbusy c v, rfl⟩
    · exact ⟨_, exec_encSend_appends_frame (eq_false_of_ne_true hbusy) c v, rfl⟩
  | idleH1 | idleSkip b | h1H2 | h1Resync b | cmdLatch b | valLatch b | chkPass b | chkFail b | decDispatch | encB0 | encB1
  | encB2 c | encB3 v | encB4 c v | reset => exact ⟨_, rfl, rfl⟩

/-- Settles O59: family by family, by what the operations of the family leave. -/
theorem everyRegisterHasItsWriters : Obligations.EveryRegisterHasItsWriters := by
  intro i s t h
  obtain hstep | hop | rfl | rfl := operation_families i
  · obtain ⟨b, rfl, rfl⟩ | ⟨b, rfl, rfl⟩ | ⟨b, rfl, rfl⟩ | ⟨rfl, rfl⟩ | ⟨hi, p, rfl⟩ := exec_decoderStep_cases hstep h
    · simp [SameEncoder, decoderStep]
    · simp [SameEncoder, decoderStep]
    · simp [SameEncoder, decoderStep]
    · simp [SameEncoder]
    · simp [SameEncoder, hstep, hi]
  · obtain ⟨w, rfl⟩ := exec_encoderOperation_appends hop h
    simp [SameEncoder, hop]
  · obtain ⟨⟨hbusy, hidx, hcmd, hval, htx⟩, hactive, -⟩ := feedFrame s t h
    simp [SameEncoder, hbusy, hidx, hcmd, hval, htx, hactive]
  · cases h
    simp

/-- Settles O60: the step of a channel replaces its place in the list and no other. -/
theorem channelsAreIsolated : Obligations.ChannelsAreIsolated := by
  intro k sys sys' s h hs
  rw [System.stepChannel, hs] at h
  cases hstep : step s with
  | next t =>
    simp only [hstep, Option.some.injEq] at h
    subst h
    have hk : k < sys.channels.length := (List.getElem?_eq_some_iff.mp hs).1
    exact ⟨fun j hj => List.getElem?_set_ne hj.symm, t, rfl, List.getElem?_set_self hk⟩
  | fault r => exact nomatch r
  | refused r => simp [hstep] at h

end Sys2Proof.Machine
end
